-- ==== Sys2Proof/Word.lean ====
section
/-! DEFINITION. The widths of the engine's values (00_scope.md R4): a byte, a 16-bit register or CRC, a 32-bit zigzag,
varint or delta pattern, a 64-bit series element or port value. -/

namespace Sys2Proof

/-- `u8` (R4). -/
abbrev Byte := BitVec 8

/-- `u16`: the CRC, register addresses, counts and values, element counts and lengths (R4, R13). -/
abbrev Half := BitVec 16

/-- A 32-bit pattern, read as `u32` or `i32` by the command that uses it (R4, R23). -/
abbrev Word := BitVec 32

/-- A 64-bit pattern: a series element (R33) or the data of the host port (R43). -/
abbrev Dword := BitVec 64

end Sys2Proof
end

