-- ==== Sys2Proof/Config.lean ====
section
/-! DEFINITION. What is fixed for the life of an engine (R1 to R3) and the values the spec leaves free (R37, R45). -/

namespace Sys2Proof

/-- The open parameters of an engine: `NB`, `NW` (R1) and the exception table `EXC_MAP` (R3), which is a list of
(code, reason index) pairs. A model takes them as arguments; here the state carries them (assumption 1), so that a
statement about every state is a statement about every engine. -/
structure Params where
  nb : Nat
  nw : Nat
  excMap : List (Byte × BitVec 4)
deriving DecidableEq, Repr

/-- `NR`: the number of elements of `REG` (R2, R35). -/
def Config.regCount : Nat := 127

/-- The content of element `index` of buffer space `space`, of width `w`, which neither the host nor a command has
written since the reset numbered `draw`: an arbitrary value of its width, drawn once, under no law (R37). A FREE VALUE
(assumption 3): nothing can be proved of it but that two reads of one element agree. -/
opaque Config.unwritten (w draw space index : Nat) : BitVec w

/-- The data of the refused host read numbered `draw`: unspecified (R45). A FREE VALUE (assumption 4). -/
opaque Config.refusedRead (draw : Nat) : Dword

end Sys2Proof
end

