-- ==== Sys2Proof/Syntax.lean ====
section
/-! DEFINITION. The 17 commands (30_encoding.md R61), the names the host port reaches (R13, R40), and the events of the
host's total order (R50, R181, R186). -/

namespace Sys2Proof

/-- The commands, one constructor per row of the opcode map (R61). A command word carries no operand (R62). -/
inductive Instr where
  /-- R93 -/
  | nop
  /-- R94 -/
  | clrs
  /-- R95 -/
  | sreset
  /-- R101 -/
  | crc16
  /-- R102 -/
  | crcapp
  /-- R103 -/
  | crcvfy
  /-- R110 -/
  | bldrd
  /-- R111 -/
  | bldwr
  /-- R112 -/
  | parse
  /-- R132 -/
  | denc
  /-- R133 -/
  | ddec
  /-- R144 -/
  | zzenc
  /-- R145 -/
  | zzdec
  /-- R146 -/
  | venc
  /-- R147 -/
  | vdec
  /-- R148 -/
  | pack
  /-- R149 -/
  | unpack
deriving DecidableEq, Repr

/-- The function units of the `UNIT` field (R60). -/
inductive FunctionUnit where
  | sys
  | crc
  | frame
  | delta
  | varint
deriving DecidableEq, Repr

/-- The `UNIT` column of the opcode map (R61). -/
def Instr.unit : Instr → FunctionUnit
  | .nop => .sys
  | .clrs => .sys
  | .sreset => .sys
  | .crc16 => .crc
  | .crcapp => .crc
  | .crcvfy => .crc
  | .bldrd => .frame
  | .bldwr => .frame
  | .parse => .frame
  | .denc => .delta
  | .ddec => .delta
  | .zzenc => .varint
  | .zzdec => .varint
  | .venc => .varint
  | .vdec => .varint
  | .pack => .varint
  | .unpack => .varint

/-- The 17 control and status registers by name (R13). -/
inductive CsrName where
  | cmd
  | status
  | sticky
  | slave
  | addr
  | data
  | len
  | cnt
  | off
  | val
  | crc
  | rlen
  | rcnt
  | raddr
  | rfunc
  | exc
  | reason
deriving DecidableEq, Repr

/-- The five buffers (R32 to R35). -/
inductive BufferName where
  | ib
  | ob
  | ser
  | dlt
  | reg
deriving DecidableEq, Repr

/-- An existing location: a CSR, or an element of a buffer (R40). -/
inductive Location where
  | csr (name : CsrName)
  | element (buffer : BufferName) (index : Nat)
deriving DecidableEq, Repr

/-- One event of the total order (R50): a port access as the binary form of a host script writes it (R64: read or
write, space number, index, value), or the external reset (R181). Any numbers may stand in an access: which of them name
a location is the port's business (R45). -/
inductive HostEvent where
  | read (space index : Nat)
  | write (space index : Nat) (value : Dword)
  | reset
deriving DecidableEq, Repr

/-- A host script: the finite list of events the host has still to issue, in order (R186). -/
abbrev Script := List HostEvent

end Sys2Proof
end

