-- ==== Sys2Proof/WellFormed.lean ====
section
/-! DEFINITION. The checks on syntax and parameters: R1 and R3 for the parameters, R45 for an access. -/

namespace Sys2Proof

/-- A command word carries no operand, no immediate and no mode bit (R60, R62), so every term of `Instr` is well formed:
there is nothing to check. -/
def Instr.wf (_ : Instr) : Bool := true

/-- `8 <= NB <= 65535` (R1). -/
def Params.nbWf (p : Params) : Bool := decide (8 ≤ p.nb) && decide (p.nb ≤ 65535)

/-- `1 <= NW <= 65535` (R1). -/
def Params.nwWf (p : Params) : Bool := decide (1 ≤ p.nw) && decide (p.nw ≤ 65535)

/-- Every code of `EXC_MAP` lies in 0x01 to 0x0B and every reason index in 1 to 9 (R3). -/
def Params.excEntriesWf (p : Params) : Bool :=
  p.excMap.all fun e =>
    decide (1 ≤ e.1.toNat) && decide (e.1.toNat ≤ 11) && decide (1 ≤ e.2.toNat) && decide (e.2.toNat ≤ 9)

/-- `EXC_MAP` has exactly nine entries, no code twice, and maps 0x02 to reason 2 (R3). -/
def Params.excShapeWf (p : Params) : Bool :=
  decide (p.excMap.length = 9) && decide (p.excMap.map Prod.fst).Nodup && decide (p.excMap.lookup 2#8 = some 2#4)

/-- The parameters an engine may have (R1, R3). -/
def Params.wf (p : Params) : Bool := p.nbWf && p.nwWf && p.excEntriesWf && p.excShapeWf

/-- The number of locations of a space, by its number (R40); a number above 5 names no space. -/
def Params.spaceSize (p : Params) : Nat → Nat
  | 0 => 17
  | 1 => p.nb
  | 2 => p.nb
  | 3 => p.nw
  | 4 => p.nw
  | 5 => Config.regCount
  | _ => 0

/-- Whether a CSR number is that of a register the host may write: CMD, SLAVE, ADDR, DATA, LEN, CNT, OFF, VAL (R44). -/
def csrHostWritable (n : Nat) : Bool := decide (n = 0) || (decide (3 ≤ n) && decide (n ≤ 9))

/-- An event the port does not refuse (R45): the space number is at most 5, the index is inside the space, and it is no
write of a read-only CSR. The external reset is always well formed. -/
def HostEvent.wf (p : Params) : HostEvent → Bool
  | .read space index => decide (index < p.spaceSize space)
  | .write space index _ => decide (index < p.spaceSize space) && (decide (space ≠ 0) || csrHostWritable index)
  | .reset => true

end Sys2Proof
end

