-- ==== Sys2Proof/Decode.lean ====
section
/-! DEFINITION. The command decoder and encoder (R60, R61, R63), and the numbers of the CSRs and spaces on the port
(R13, R40). -/

namespace Sys2Proof

/-- Why the decoder refuses a command word. -/
inductive DecodeError where
  /-- One of the 239 values that are not in the opcode map (R63). -/
  | reservedOpcode (op : Byte)
deriving DecidableEq, Repr

/-- The decoder: an exact match of all 8 bits against the opcode map (R61); every other value is reserved (R63). -/
def decode (op : Byte) : Except DecodeError Instr :=
  match op.toNat with
  | 0x00 => .ok .nop
  | 0x01 => .ok .clrs
  | 0x02 => .ok .sreset
  | 0x10 => .ok .crc16
  | 0x11 => .ok .crcapp
  | 0x12 => .ok .crcvfy
  | 0x20 => .ok .bldrd
  | 0x21 => .ok .bldwr
  | 0x22 => .ok .parse
  | 0x30 => .ok .denc
  | 0x31 => .ok .ddec
  | 0x40 => .ok .zzenc
  | 0x41 => .ok .zzdec
  | 0x42 => .ok .venc
  | 0x43 => .ok .vdec
  | 0x44 => .ok .pack
  | 0x45 => .ok .unpack
  | _ => .error (.reservedOpcode op)

/-- The `UNIT` field's value for a unit (R60). -/
def unitCode : FunctionUnit → BitVec 4
  | .sys => 0
  | .crc => 1
  | .frame => 2
  | .delta => 3
  | .varint => 4

/-- The `FN` column of the opcode map (R61). -/
def Instr.fn : Instr → BitVec 4
  | .nop => 0
  | .clrs => 1
  | .sreset => 2
  | .crc16 => 0
  | .crcapp => 1
  | .crcvfy => 2
  | .bldrd => 0
  | .bldwr => 1
  | .parse => 2
  | .denc => 0
  | .ddec => 1
  | .zzenc => 0
  | .zzdec => 1
  | .venc => 2
  | .vdec => 3
  | .pack => 4
  | .unpack => 5

/-- The encoder: the `opcode` column of the opcode map (R61). -/
def encode : Instr → Byte
  | .nop => 0x00#8
  | .clrs => 0x01#8
  | .sreset => 0x02#8
  | .crc16 => 0x10#8
  | .crcapp => 0x11#8
  | .crcvfy => 0x12#8
  | .bldrd => 0x20#8
  | .bldwr => 0x21#8
  | .parse => 0x22#8
  | .denc => 0x30#8
  | .ddec => 0x31#8
  | .zzenc => 0x40#8
  | .zzdec => 0x41#8
  | .venc => 0x42#8
  | .vdec => 0x43#8
  | .pack => 0x44#8
  | .unpack => 0x45#8

/-- The `UNIT` field of a command word (R14, R60). -/
def unitField (op : Byte) : BitVec 4 := op.extractLsb' 4 4

/-- The `FN` field of a command word (R14, R60). -/
def fnField (op : Byte) : BitVec 4 := op.extractLsb' 0 4

/-- The CSR that a number of the CSR space names (R13); 17 and above name none (R31). -/
def csrOfNumber : Nat → Option CsrName
  | 0 => some .cmd
  | 1 => some .status
  | 2 => some .sticky
  | 3 => some .slave
  | 4 => some .addr
  | 5 => some .data
  | 6 => some .len
  | 7 => some .cnt
  | 8 => some .off
  | 9 => some .val
  | 10 => some .crc
  | 11 => some .rlen
  | 12 => some .rcnt
  | 13 => some .raddr
  | 14 => some .rfunc
  | 15 => some .exc
  | 16 => some .reason
  | _ => none

/-- A CSR's number (R13). -/
def csrNumber : CsrName → Nat
  | .cmd => 0
  | .status => 1
  | .sticky => 2
  | .slave => 3
  | .addr => 4
  | .data => 5
  | .len => 6
  | .cnt => 7
  | .off => 8
  | .val => 9
  | .crc => 10
  | .rlen => 11
  | .rcnt => 12
  | .raddr => 13
  | .rfunc => 14
  | .exc => 15
  | .reason => 16

/-- A buffer's space number (R40). -/
def bufferSpace : BufferName → Nat
  | .ib => 1
  | .ob => 2
  | .ser => 3
  | .dlt => 4
  | .reg => 5

/-- A buffer's number of elements (R32 to R35, R40). -/
def bufferSize (p : Params) : BufferName → Nat
  | .ib => p.nb
  | .ob => p.nb
  | .ser => p.nw
  | .dlt => p.nw
  | .reg => Config.regCount

/-- An element of a buffer, when the index is in the buffer's range (R40). -/
def elementAt (p : Params) (b : BufferName) (index : Nat) : Option Location :=
  if index < bufferSize p b then some (.element b index) else none

/-- The location that a space number and an index name, or none (R40, R45). -/
def decodeLocation (p : Params) (space index : Nat) : Option Location :=
  match space with
  | 0 => (csrOfNumber index).map .csr
  | 1 => elementAt p .ib index
  | 2 => elementAt p .ob index
  | 3 => elementAt p .ser index
  | 4 => elementAt p .dlt index
  | 5 => elementAt p .reg index
  | _ => none

/-- The low `nbits` bits of a number, as the 64-bit value that stands on the port when the host writes that command
word (R44). -/
def portWord (nbits w : Nat) : Dword := BitVec.ofNat 64 (w % 2 ^ nbits)

/-- The command the decoder reads from a word of the opcode table: the port value truncated to the 8 bits of `CSR.CMD`
(R14, R39), decoded; none where it is reserved. -/
def decodeTableWord (nbits w : Nat) : Option Instr :=
  (decode ((portWord nbits w).setWidth 8)).toOption

end Sys2Proof
end

