-- ==== Sys2Proof/Machine/Parameters.lean ====
section
/-! DEFINITION. The example parameters of the spec, which State.reset carries (R1, R122; assumptions 1 and 2). -/

namespace Sys2Proof

/-- The default `EXC_MAP` (R122). Only the row of 0x02 is the source's. PRESUMED (assumption 2): the other eight rows are
the spec's general knowledge (G1), so no statement may rest on them without saying so. -/
def Config.defaultExcMap : List (Byte × BitVec 4) :=
  [(0x01, 1), (0x02, 2), (0x03, 3), (0x04, 4), (0x05, 5), (0x06, 6), (0x08, 7), (0x0A, 8), (0x0B, 9)]

/-- The example capacities of R1 and the default table of R122. DESIGN CHOICE (assumption 1): the spec leaves `NB` and
`NW` open, and names these values as its examples only. -/
def Config.exampleParams : Params :=
  { nb := 2048, nw := 256, excMap := Config.defaultExcMap }

end Sys2Proof
end

