-- ==== Sys2Proof/Machine/State.lean ====
section
/-! DEFINITION. The machine's state (R11, R13, R32 to R35), the reasons a step can stop (none in this spec), and the
state after reset (R36, R37). -/

namespace Sys2Proof.Machine

/-- Why the machine would stop with a fault. The spec has no trap and no fault that stops the engine: every error is a
code in `CSR.STATUS` (R165), every refused access a bit of `CSR.STICKY` (R175), and every command terminates (R97). So
there is no constructor. -/
inductive Fault
deriving DecidableEq, Repr

/-- Why the machine would refuse an instruction. -/
inductive Refusal where
  /-- Raised only by an arm of `exec` for a command that has no meaning yet; safe. No arm raises it. -/
  | notModelled (mnemonic : String)
deriving DecidableEq, Repr

/-- The 17 control and status registers (R13), each in exactly its width. -/
structure Csrs where
  /-- R14: the opcode last written -/
  cmd : Byte
  /-- R15: ERR in 3:0, KIND in 5:4, zero in 7:6 -/
  status : Byte
  /-- R16: accumulated event bits -/
  sticky : BitVec 9
  /-- R17 -/
  slave : Byte
  /-- R18 -/
  addr : Half
  /-- R19 -/
  data : Half
  /-- R20 -/
  len : Half
  /-- R21 -/
  cnt : Half
  /-- R22 -/
  off : Half
  /-- R23 -/
  val : Word
  /-- R24 -/
  crc : Half
  /-- R25 -/
  rlen : Half
  /-- R26 -/
  rcnt : Half
  /-- R27 -/
  raddr : Byte
  /-- R28 -/
  rfunc : Byte
  /-- R29 -/
  exc : Byte
  /-- R30 -/
  reason : BitVec 4
deriving DecidableEq, Repr

/-- Every CSR at its reset value, 0 (R36, R180). -/
def Csrs.reset : Csrs :=
  { cmd := 0, status := 0, sticky := 0, slave := 0, addr := 0, data := 0, len := 0, cnt := 0, off := 0, val := 0,
    crc := 0, rlen := 0, rcnt := 0, raddr := 0, rfunc := 0, exc := 0, reason := 0 }

/-- A buffer of elements of width `w` (R40, R41): the elements written since reset, as (index, value) pairs. A byte
buffer is a list of `Host.Cell`. An index that is not listed holds nothing stored; reading it gives the free value of
R37 (assumptions 3 and 9). -/
abbrev Memory (w : Nat) := List (Nat × BitVec w)

/-- The canonical form: strictly rising indices (assumption 9). No entry can equal what an unlisted index holds, which
is no stored value at all. -/
def Memory.wf {w : Nat} : Memory w → Bool
  | [] => true
  | [_] => true
  | a :: b :: rest => decide (a.1 < b.1) && Memory.wf (b :: rest)

/-- The machine: the spec's whole state (R11) and the model's own fields. -/
structure State where
  /-- R13: the control and status registers -/
  csr : Csrs
  /-- R32: input bytes -/
  ib : Memory 8
  /-- R32: output bytes -/
  ob : Memory 8
  /-- R33: series elements, `i64` -/
  ser : Memory 64
  /-- R34: deltas, `i32` -/
  dlt : Memory 32
  /-- R35: parsed registers, `u16` -/
  reg : Memory 16
  /-- The MODEL's own: the engine's parameters (R1, R3; assumption 1). No step changes them. -/
  params : Params
  /-- The MODEL's own: which draw of the unspecified contents holds since the last reset (R37; assumption 3). -/
  epoch : Nat
  /-- The MODEL's own: the next fresh draw of a free value (R37, R45; assumptions 3 and 4). -/
  draws : Nat
  /-- The MODEL's own: the host events still to come (R50, R186; assumption 5). -/
  script : Script
  /-- The MODEL's own: the values the host's reads returned, in order (R186; assumption 5). -/
  returned : List Dword
deriving DecidableEq, Repr

/-- The machine right after reset: every CSR 0 (R36), every buffer element unspecified (R37), ready for a command at once
(R182). The model's own fields: the example parameters (assumptions 1 and 2), no host event pending and none returned
(assumption 5), the first draw (assumption 8). -/
def State.reset : State :=
  { csr := Csrs.reset, ib := [], ob := [], ser := [], dlt := [], reg := [], params := Config.exampleParams,
    epoch := 0, draws := 1, script := [], returned := [] }

end Sys2Proof.Machine
end

