-- ==== Sys2Proof/Machine/Flags.lean ====
section
/-! DEFINITION. STATUS and STICKY: error codes (R160), kinds and fields (R15), sticky bits (R16). -/

namespace Sys2Proof.Machine

/-- The errors a command can end with (R160). OK, code 0, is not among them: it is a successful end. -/
inductive ErrorCode where
  | tooShort
  | crcMismatch
  | badByteCount
  | malformed
  | range
  | badLength
  | illegalCmd
deriving DecidableEq, Repr

/-- The parse kinds of `STATUS.KIND` (R15). -/
inductive Kind where
  | none
  | registers
  | exception
  | other
deriving DecidableEq, Repr

/-- The number of an error, 1 to 7 (R160). -/
def errorNumber : ErrorCode → Nat
  | .tooShort => 1
  | .crcMismatch => 2
  | .badByteCount => 3
  | .malformed => 4
  | .range => 5
  | .badLength => 6
  | .illegalCmd => 7

/-- The number of a kind, 0 to 3 (R15). -/
def kindNumber : Kind → Nat
  | .none => 0
  | .registers => 1
  | .exception => 2
  | .other => 3

/-- `STATUS` after a successful end: `kind * 16` (R162). -/
def statusOfKind (k : Kind) : Byte := BitVec.ofNat 8 (kindNumber k * 16)

/-- `STATUS` after an error end: ERR is the error, KIND is NONE (R163). -/
def statusOfError (e : ErrorCode) : Byte := BitVec.ofNat 8 (errorNumber e)

/-- The field `STATUS.ERR`, bits 3:0 (R15). -/
def statusErr (st : Byte) : BitVec 4 := st.extractLsb' 0 4

/-- The field `STATUS.KIND`, bits 5:4 (R15). -/
def statusKind (st : Byte) : BitVec 2 := st.extractLsb' 4 2

/-- The reserved field `STATUS[7:6]`, always 0 (R15). -/
def statusReserved (st : Byte) : BitVec 2 := st.extractLsb' 6 2

/-- `STICKY.EXC`, bit 0 (R16). -/
def stickyExc : BitVec 9 := 0x001

/-- `STICKY.ACCESS`, bit 8 (R16). -/
def stickyAccess : BitVec 9 := 0x100

/-- The sticky copy of an error: bit `n` for error number `n` (R16, R163). -/
def stickyOfError (e : ErrorCode) : BitVec 9 := 1#9 <<< errorNumber e

/-- `STICKY` after a successful end: bit 0 is set when the kind is EXCEPTION, no bit is cleared (R162). -/
def stickyAfterKind (k : Kind) (old : BitVec 9) : BitVec 9 :=
  match k with
  | .exception => old ||| stickyExc
  | .none => old
  | .registers => old
  | .other => old

/-- `STICKY` after an error end (R163). -/
def stickyAfterError (e : ErrorCode) (old : BitVec 9) : BitVec 9 := old ||| stickyOfError e

end Sys2Proof.Machine
end

