-- ==== Sys2Proof/Machine/Ops.lean ====
section
/-! DEFINITION. The named operations over buffers and registers, the two ends of a command (R162, R163), and the external
reset (R180). -/

namespace Sys2Proof.Machine

/-- What a step or a command answers. -/
abbrev Answer := Host.Outcome State Fault Refusal

/-! ### Buffers -/

/-- The value stored at an index since reset, if any: the first entry of that index. -/
def Memory.stored {w : Nat} : Memory w → Nat → Option (BitVec w)
  | [], _ => none
  | (j, v) :: rest, i => if j = i then some v else Memory.stored rest i

/-- The value of an element: what is stored there, else the unspecified content `free` (R37). -/
def Memory.read {w : Nat} (m : Memory w) (free : Nat → BitVec w) (i : Nat) : BitVec w :=
  (m.stored i).getD (free i)

/-- The buffer with one element written; it keeps the indices strictly rising. -/
def Memory.write {w : Nat} : Memory w → Nat → BitVec w → Memory w
  | [], i, v => [(i, v)]
  | (j, u) :: rest, i, v =>
    if j < i then (j, u) :: Memory.write rest i v
    else if j = i then (i, v) :: rest
    else (i, v) :: (j, u) :: rest

/-- The buffer with consecutive elements written, from index `i` on. -/
def Memory.writeFrom {w : Nat} (m : Memory w) (i : Nat) : List (BitVec w) → Memory w
  | [] => m
  | v :: vs => (m.write i v).writeFrom (i + 1) vs

/-- `IB[i]` (R32). -/
def State.readIb (s : State) (i : Nat) : Byte := s.ib.read (Config.unwritten 8 s.epoch (bufferSpace .ib)) i

/-- `OB[i]` (R32). -/
def State.readOb (s : State) (i : Nat) : Byte := s.ob.read (Config.unwritten 8 s.epoch (bufferSpace .ob)) i

/-- `SER[i]` (R33). -/
def State.readSer (s : State) (i : Nat) : Dword := s.ser.read (Config.unwritten 64 s.epoch (bufferSpace .ser)) i

/-- `DLT[i]` (R34). -/
def State.readDlt (s : State) (i : Nat) : Word := s.dlt.read (Config.unwritten 32 s.epoch (bufferSpace .dlt)) i

/-- `REG[i]` (R35). -/
def State.readReg (s : State) (i : Nat) : Half := s.reg.read (Config.unwritten 16 s.epoch (bufferSpace .reg)) i

/-! ### Updates -/

/-- The state with other CSRs. -/
def State.setCsr (s : State) (c : Csrs) : State := { s with csr := c }

/-- The state with another `IB`. -/
def State.setIb (s : State) (m : Memory 8) : State := { s with ib := m }

/-- The state with another `OB`. -/
def State.setOb (s : State) (m : Memory 8) : State := { s with ob := m }

/-- The state with another `SER`. -/
def State.setSer (s : State) (m : Memory 64) : State := { s with ser := m }

/-- The state with another `DLT`. -/
def State.setDlt (s : State) (m : Memory 32) : State := { s with dlt := m }

/-- The state with another `REG`. -/
def State.setReg (s : State) (m : Memory 16) : State := { s with reg := m }

/-- The state with other host events to come. -/
def State.setScript (s : State) (es : Script) : State := { s with script := es }

/-- The state with one more value returned to the host (R186). -/
def State.pushReturned (s : State) (v : Dword) : State := { s with returned := s.returned ++ [v] }

/-- The state with the next draw taken. -/
def State.nextDraw (s : State) : State := { s with draws := s.draws + 1 }

/-! ### How a command ends -/

/-- The successful end of a command (R162): `CMD` holds the opcode, `STATUS` is `kind * 16`, and `STICKY.EXC` is set when
the kind is EXCEPTION. The command's collected writes are already in `s`. The opcode written is the one the command was
decoded from, since decoding is an exact match of all 8 bits (R61; assumption 10). -/
def completeCommand (i : Instr) (k : Kind) (s : State) : Answer :=
  .next (s.setCsr { s.csr with
    cmd := encode i, status := statusOfKind k, sticky := stickyAfterKind k s.csr.sticky })

/-- The error end `fail E` of the command word `op` (R163): `CMD`, `STATUS` and `STICKY` are written and nothing else
changes. The engine has no trap (R165): this is its one way of taking an error. -/
def failCommand (op : Byte) (e : ErrorCode) (s : State) : Answer :=
  .next (s.setCsr { s.csr with
    cmd := op, status := statusOfError e, sticky := stickyAfterError e s.csr.sticky })

/-! ### Reset -/

/-- The external reset (R36, R37, R180): every CSR 0, every buffer element unspecified anew. The host's pending events,
what its reads returned and the parameters are not the engine's state and stay (assumption 7). -/
def externalReset (s : State) : State :=
  { s with csr := Csrs.reset, ib := [], ob := [], ser := [], dlt := [], reg := [], epoch := s.draws,
           draws := s.draws + 1 }

/-! ### Registers and locations on the port -/

/-- The value of a CSR, zero-extended to the port (R39, R43). -/
def Csrs.load (c : Csrs) : CsrName → Dword
  | .cmd => c.cmd.setWidth 64
  | .status => c.status.setWidth 64
  | .sticky => c.sticky.setWidth 64
  | .slave => c.slave.setWidth 64
  | .addr => c.addr.setWidth 64
  | .data => c.data.setWidth 64
  | .len => c.len.setWidth 64
  | .cnt => c.cnt.setWidth 64
  | .off => c.off.setWidth 64
  | .val => c.val.setWidth 64
  | .crc => c.crc.setWidth 64
  | .rlen => c.rlen.setWidth 64
  | .rcnt => c.rcnt.setWidth 64
  | .raddr => c.raddr.setWidth 64
  | .rfunc => c.rfunc.setWidth 64
  | .exc => c.exc.setWidth 64
  | .reason => c.reason.setWidth 64

/-- The CSRs with one of the plain host-writable registers written, the value truncated to its width (R39, R44); none for
a read-only register (R45). `CMD` is host-writable too, but its write starts a command and is not a plain store: the port
handles it before this (R14). -/
def Csrs.store (c : Csrs) (v : Dword) : CsrName → Option Csrs
  | .cmd => none
  | .status => none
  | .sticky => none
  | .slave => some { c with slave := v.setWidth 8 }
  | .addr => some { c with addr := v.setWidth 16 }
  | .data => some { c with data := v.setWidth 16 }
  | .len => some { c with len := v.setWidth 16 }
  | .cnt => some { c with cnt := v.setWidth 16 }
  | .off => some { c with off := v.setWidth 16 }
  | .val => some { c with val := v.setWidth 32 }
  | .crc => none
  | .rlen => none
  | .rcnt => none
  | .raddr => none
  | .rfunc => none
  | .exc => none
  | .reason => none

/-- The value of a location, zero-extended to the port (R39, R43, R49). -/
def State.load (s : State) : Location → Dword
  | .csr name => s.csr.load name
  | .element .ib i => (s.readIb i).setWidth 64
  | .element .ob i => (s.readOb i).setWidth 64
  | .element .ser i => s.readSer i
  | .element .dlt i => (s.readDlt i).setWidth 64
  | .element .reg i => (s.readReg i).setWidth 64

/-- The state with one location but `CMD` written, the value truncated to its width (R39, R44); none where the host may
not write. Every buffer element is host-writable. -/
def State.store (s : State) (v : Dword) : Location → Option State
  | .csr name => (s.csr.store v name).map s.setCsr
  | .element .ib i => some (s.setIb (s.ib.write i (v.setWidth 8)))
  | .element .ob i => some (s.setOb (s.ob.write i (v.setWidth 8)))
  | .element .ser i => some (s.setSer (s.ser.write i v))
  | .element .dlt i => some (s.setDlt (s.dlt.write i (v.setWidth 32)))
  | .element .reg i => some (s.setReg (s.reg.write i (v.setWidth 16)))

/-- What a refused access changes: `STICKY.ACCESS` is set, nothing else (R45, R175). -/
def refuseAccess (s : State) : State :=
  s.setCsr { s.csr with sticky := s.csr.sticky ||| stickyAccess }

end Sys2Proof.Machine
end

