-- ==== Sys2Proof/Machine/Operands.lean ====
section
/-! DEFINITION. The operands of the commands (R20, R21, R62): input ranges of the buffers, the capacity checks (R166),
and the two bytes of a 16-bit value (R46). -/

namespace Sys2Proof.Machine

/-- `LEN` as a number of bytes (R20). -/
def State.lenOperand (s : State) : Nat := s.csr.len.toNat

/-- `CNT` as a number of elements (R21). -/
def State.cntOperand (s : State) : Nat := s.csr.cnt.toNat

/-- `OFF` as an index into `IB` (R22). -/
def State.offOperand (s : State) : Nat := s.csr.off.toNat

/-- `IB[0..n)`. -/
def State.ibBytes (s : State) (n : Nat) : List Byte := (List.range n).map s.readIb

/-- `SER[0..n)`. -/
def State.serElements (s : State) (n : Nat) : List Dword := (List.range n).map s.readSer

/-- `DLT[0..n)`. -/
def State.dltElements (s : State) (n : Nat) : List Word := (List.range n).map s.readDlt

/-- `LEN > NB` (R166). -/
def State.lenTooLarge (s : State) : Bool := decide (s.params.nb < s.lenOperand)

/-- `CNT > NW` (R166). -/
def State.cntTooLarge (s : State) : Bool := decide (s.params.nw < s.cntOperand)

/-- `v[7:0]`. -/
def loByte (v : Half) : Byte := v.extractLsb' 0 8

/-- `v[15:8]`. -/
def hiByte (v : Half) : Byte := v.extractLsb' 8 8

/-- `hi * 256 + lo`. -/
def joinBytes (hi lo : Byte) : Half := hi ++ lo

end Sys2Proof.Machine
end

