-- ==== Sys2Proof/Machine/Crc.lean ====
section
/-! DEFINITION. The CRC unit: the function `crc16` (41_crc.md R100), CRC16, CRCAPP, CRCVFY (R101 to R103). -/

namespace Sys2Proof.Machine

/-- One of the eight iterations for a byte: shift right, and xor 0xA001 when the bit shifted out was 1 (R100). -/
def crcShift (c : Half) : Half := if c.getLsbD 0 then (c >>> 1) ^^^ 0xA001#16 else c >>> 1

/-- `k` iterations. -/
def crcShifts : Nat → Half → Half
  | 0, c => c
  | k + 1, c => crcShifts k (crcShift c)

/-- One byte: xor into bits 7:0, then eight iterations (R100). -/
def crcByte (c : Half) (b : Byte) : Half := crcShifts 8 (c ^^^ b.setWidth 16)

/-- `crc16` (R100): start value 0xFFFF, bytes in index order, no final xor. -/
def crc16 (bytes : List Byte) : Half := bytes.foldl crcByte 0xFFFF#16

/-- The CRC's two bytes as they stand in a frame: low byte first (R69). -/
def crcBytes (c : Half) : List Byte := [loByte c, hiByte c]

/-- The CRC of `IB[0..n-2)`, the bytes before the last two (R67). -/
def State.frameCrc (s : State) (n : Nat) : Half := crc16 (s.ibBytes (n - 2))

/-- Whether `IB[n-2]` and `IB[n-1]` are that CRC, low byte first (R103, R114). -/
def State.crcMatches (s : State) (n : Nat) : Bool :=
  decide (s.readIb (n - 2) = loByte (s.frameCrc n)) && decide (s.readIb (n - 1) = hiByte (s.frameCrc n))

/-- CRC16 (R101). -/
def execCrc16 (s : State) : Answer :=
  if s.lenTooLarge then failCommand (encode .crc16) .badLength s
  else completeCommand .crc16 .none (s.setCsr { s.csr with crc := crc16 (s.ibBytes s.lenOperand) })

/-- CRCAPP (R102): `IB[0..LEN)` copied to `OB`, its CRC appended low byte first. -/
def execCrcapp (s : State) : Answer :=
  let n := s.lenOperand
  if s.params.nb < n + 2 then failCommand (encode .crcapp) .badLength s
  else
    let c := crc16 (s.ibBytes n)
    completeCommand .crcapp .none
      ((s.setOb (s.ob.writeFrom 0 (s.ibBytes n ++ crcBytes c))).setCsr
        { s.csr with crc := c, rlen := BitVec.ofNat 16 (n + 2) })

/-- CRCVFY (R103): BAD_LENGTH, then TOO_SHORT, then CRC_MISMATCH (R168). -/
def execCrcvfy (s : State) : Answer :=
  let n := s.lenOperand
  if s.lenTooLarge then failCommand (encode .crcvfy) .badLength s
  else if n < 2 then failCommand (encode .crcvfy) .tooShort s
  else if s.crcMatches n then completeCommand .crcvfy .none (s.setCsr { s.csr with crc := s.frameCrc n })
  else failCommand (encode .crcvfy) .crcMismatch s

end Sys2Proof.Machine
end

