-- ==== Sys2Proof/Machine/Delta.lean ====
section
/-! DEFINITION. The DELTA unit: delta encoding and decoding (43_delta.md R130, R131), DENC and DDEC (R132, R133). -/

namespace Sys2Proof.Machine

/-- `fits_i32` (00_scope.md section 5, R8). -/
def fitsI32 (z : Int) : Bool := decide (-2147483648 ≤ z) && decide (z ≤ 2147483647)

/-- The exact differences of a series from a previous value on, never wrapped (R130, R135). -/
def differencesFrom (previous : Int) : List Dword → List Int
  | [] => []
  | x :: rest => (x.toInt - previous) :: differencesFrom x.toInt rest

/-- The first value and the exact differences of a series (R130). -/
def exactDeltas : List Dword → List Int
  | [] => []
  | x :: rest => x.toInt :: differencesFrom x.toInt rest

/-- `delta_encode` (R130): the deltas as 32-bit patterns, or none for RANGE when some output element does not fit. -/
def deltaEncode (series : List Dword) : Option (List Word) :=
  if (exactDeltas series).all fitsI32 then some ((exactDeltas series).map (BitVec.ofInt 32)) else none

/-- The exact running sums of a delta sequence from a previous value on (R131). -/
def sumsFrom (previous : Int) : List Word → List Int
  | [] => []
  | d :: rest => (previous + d.toInt) :: sumsFrom (previous + d.toInt) rest

/-- The first value and the exact running sums (R131). -/
def exactSums : List Word → List Int
  | [] => []
  | d :: rest => d.toInt :: sumsFrom d.toInt rest

/-- `delta_decode` (R131): the running sums as 64-bit patterns. The sum cannot leave `i64` for a series that fits the
buffer (R135; assumption 11). -/
def deltaDecode (deltas : List Word) : List Dword := (exactSums deltas).map (BitVec.ofInt 64)

/-- DENC (R132): BAD_LENGTH, then RANGE (R168). -/
def execDenc (s : State) : Answer :=
  let n := s.cntOperand
  if s.cntTooLarge then failCommand (encode .denc) .badLength s
  else
    match deltaEncode (s.serElements n) with
    | none => failCommand (encode .denc) .range s
    | some deltas =>
      completeCommand .denc .none
        ((s.setDlt (s.dlt.writeFrom 0 deltas)).setCsr { s.csr with rcnt := BitVec.ofNat 16 n })

/-- DDEC (R133). -/
def execDdec (s : State) : Answer :=
  let n := s.cntOperand
  if s.cntTooLarge then failCommand (encode .ddec) .badLength s
  else
    completeCommand .ddec .none
      ((s.setSer (s.ser.writeFrom 0 (deltaDecode (s.dltElements n)))).setCsr
        { s.csr with rcnt := BitVec.ofNat 16 n })

end Sys2Proof.Machine
end

