-- ==== Sys2Proof/Machine/Frame.lean ====
section
/-! DEFINITION. The FRAME unit: the two request builders (42_frame.md R110, R111) and the response parser (R112 to
R121). -/

namespace Sys2Proof.Machine

/-- The six bytes of a request before its CRC: slave, function, address and data, each 16-bit field high byte first
(R70, R71). -/
def requestBody (slave function : Byte) (addr data : Half) : List Byte :=
  [slave, function, hiByte addr, loByte addr, hiByte data, loByte data]

/-- A request: its body and the body's CRC, low byte first (R67, R69). -/
def requestFrame (slave function : Byte) (addr data : Half) : List Byte :=
  requestBody slave function addr data ++ crcBytes (crc16 (requestBody slave function addr data))

/-- The writes of a frame builder (R110, R111): `OB[0..8)`, `CRC`, `RLEN`. -/
def State.buildFrame (s : State) (function : Byte) : State :=
  (s.setOb (s.ob.writeFrom 0 (requestFrame s.csr.slave function s.csr.addr s.csr.data))).setCsr
    { s.csr with crc := crc16 (requestBody s.csr.slave function s.csr.addr s.csr.data), rlen := 8 }

/-- BLDRD (R110): the read-holding-registers request, function 0x03. Nothing is validated (R125). -/
def execBldrd (s : State) : Answer := completeCommand .bldrd .none (s.buildFrame 0x03)

/-- BLDWR (R111): the write-single-register request, function 0x06. Nothing is validated (R125). -/
def execBldwr (s : State) : Answer := completeCommand .bldwr .none (s.buildFrame 0x06)

/-- `reason(code)` (R121): the table's reason index for a known code, 0 for an unknown one. -/
def excReason (p : Params) (code : Byte) : BitVec 4 := (p.excMap.lookup code).getD 0

/-- Register `k` of a read response in `IB`, high byte first, from offset 3 (R119). -/
def State.responseRegister (s : State) (k : Nat) : Half := joinBytes (s.readIb (3 + 2 * k)) (s.readIb (4 + 2 * k))

/-- The successful end of a PARSE of `n` bytes (R112): the registers every branch writes, with the branch's own. -/
def acceptResponse (n : Nat) (k : Kind) (count : Nat) (code : Byte) (reason : BitVec 4) (s : State) : Answer :=
  completeCommand .parse k (s.setCsr { s.csr with
    crc := s.frameCrc n, rcnt := BitVec.ofNat 16 count, raddr := s.readIb 0, rfunc := s.readIb 1, exc := code,
    reason := reason })

/-- The exception branch (R115): bit 7 of the function byte is set; the code is byte 2, so 5 bytes are needed. -/
def parseException (n : Nat) (s : State) : Answer :=
  if n < 5 then failCommand (encode .parse) .tooShort s
  else acceptResponse n .exception 0 (s.readIb 2) (excReason s.params (s.readIb 2)) s

/-- The read-response branch (R116 to R119): TOO_SHORT without a byte count, then BAD_BYTE_COUNT when it is not `n - 5`
or is odd, else the registers, high byte first. -/
def parseRegisters (n : Nat) (s : State) : Answer :=
  let count := (s.readIb 2).toNat
  if n < 5 then failCommand (encode .parse) .tooShort s
  else if count ≠ n - 5 then failCommand (encode .parse) .badByteCount s
  else if count % 2 = 1 then failCommand (encode .parse) .badByteCount s
  else
    acceptResponse n .registers (count / 2) 0 0
      (s.setReg (s.reg.writeFrom 0 ((List.range (count / 2)).map s.responseRegister)))

/-- Any other function code (R120). -/
def parseOther (n : Nat) (s : State) : Answer := acceptResponse n .other 0 0 0 s

/-- PARSE (R112), its tests in the order of R168: BAD_LENGTH, TOO_SHORT, CRC_MISMATCH, then by the function byte. Nothing
is matched against a request (R124). -/
def execParse (s : State) : Answer :=
  let n := s.lenOperand
  if s.lenTooLarge then failCommand (encode .parse) .badLength s
  else if n < 4 then failCommand (encode .parse) .tooShort s
  else if !s.crcMatches n then failCommand (encode .parse) .crcMismatch s
  else if (s.readIb 1).getLsbD 7 then parseException n s
  else if s.readIb 1 = 0x03 then parseRegisters n s
  else parseOther n s

end Sys2Proof.Machine
end

