-- ==== Sys2Proof/Machine/Sys.lean ====
section
/-! DEFINITION. The SYS unit: NOP, CLRS, SRESET (40_system.md R93 to R95). -/

namespace Sys2Proof.Machine

/-- NOP (R93): nothing but `CMD` and `STATUS` is written. -/
def execNop (s : State) : Answer := completeCommand .nop .none s

/-- CLRS (R94): `STICKY` becomes 0, all nine bits. -/
def execClrs (s : State) : Answer := completeCommand .clrs .none (s.setCsr { s.csr with sticky := 0 })

/-- SRESET (R95): every CSR becomes its reset value, `CMD` included; no buffer element changes. It is the one command
whose end is not that of R162. -/
def execSreset (s : State) : Answer := .next (s.setCsr Csrs.reset)

end Sys2Proof.Machine
end

