-- ==== Sys2Proof/Machine/Varint.lean ====
section
/-! DEFINITION. The VARINT unit: zigzag (44_varint.md R140, R141), varints (R142, R143), streams (R152, R153), and ZZENC,
ZZDEC, VENC, VDEC, PACK, UNPACK (R144 to R149). -/

namespace Sys2Proof.Machine

/-- `zigzag` on the pattern of an `i32`: a left shift that drops bit 31, xor the sign's copies (R140). -/
def zigzag (p : Word) : Word := (p <<< 1) ^^^ p.sshiftRight 31

/-- `unzigzag`, as the pattern of an `i32` (R141). -/
def unzigzag (u : Word) : Word := if u.getLsbD 0 then (u >>> 1) ^^^ 0xFFFFFFFF#32 else u >>> 1

/-- The encoder's loop with at most `k` continuation bytes: 7 bits per byte, least-significant group first, bit 7 set on
all but the last byte (R142). -/
def varintLoop : Nat → Word → List Byte
  | 0, v => [v.setWidth 8]
  | k + 1, v =>
    if v < 0x80#32 then [v.setWidth 8]
    else ((v.setWidth 8 &&& 0x7F#8) ||| 0x80#8) :: varintLoop k (v >>> 7)

/-- `varint` (R142): the fewest bytes that hold the value. Four continuation bytes carry 28 bits, so the fifth byte, if
there is one, carries the last four and the loop always ends there. -/
def varint (v : Word) : List Byte := varintLoop 4 v

/-- The decoder's loop (R143) over the bytes from the offset on: `left` bytes may still be taken, `k` have been, `v` is
the value of those. It answers the value and the number of bytes taken; none for MALFORMED: the bytes are exhausted (a),
five continuation bytes (b), or value bits beyond bit 31 in the fifth byte (c). -/
def varintScan : Nat → Nat → Word → List Byte → Option (Word × Nat)
  | 0, _, _, _ => none
  | _ + 1, _, _, [] => none
  | left + 1, k, v, x :: rest =>
    if k = 4 ∧ x.extractLsb' 4 3 ≠ 0#3 then none
    else if x.getLsbD 7 then
      varintScan left (k + 1) (v ||| ((x.extractLsb' 0 7).setWidth 32 <<< (7 * k))) rest
    else some (v ||| ((x.extractLsb' 0 7).setWidth 32 <<< (7 * k)), k + 1)

/-- `varint_decode` (R143): the value of the varint that starts at an offset, and the offset of the byte after it; none
for MALFORMED. -/
def varintDecode (bytes : List Byte) (off : Nat) : Option (Word × Nat) :=
  (varintScan 5 0 0#32 (bytes.drop off)).map fun r => (r.1, off + r.2)

/-- `encode_deltas_varint` (R152). -/
def encodeStream (deltas : List Word) : List Byte := deltas.flatMap fun d => varint (zigzag d)

/-- The stream decoder's loop (R153), value by value, at most `fuel` of them; none for MALFORMED. -/
def decodeStreamLoop : Nat → List Byte → Option (List Word)
  | _, [] => some []
  | 0, _ :: _ => none
  | fuel + 1, x :: rest =>
    match varintDecode (x :: rest) 0 with
    | none => none
    | some (v, taken) => (decodeStreamLoop fuel ((x :: rest).drop taken)).map (unzigzag v :: ·)

/-- `decode_deltas_varint` (R153): every byte is consumed exactly, or the stream is MALFORMED (none). A value takes at
least one byte, so the stream's length bounds the number of values and the loop's fuel is never short. -/
def decodeStream (bytes : List Byte) : Option (List Word) := decodeStreamLoop bytes.length bytes

/-- ZZENC (R144). -/
def execZzenc (s : State) : Answer :=
  completeCommand .zzenc .none (s.setCsr { s.csr with val := zigzag s.csr.val })

/-- ZZDEC (R145). -/
def execZzdec (s : State) : Answer :=
  completeCommand .zzdec .none (s.setCsr { s.csr with val := unzigzag s.csr.val })

/-- VENC (R146): no zigzag is applied. -/
def execVenc (s : State) : Answer :=
  completeCommand .venc .none
    ((s.setOb (s.ob.writeFrom 0 (varint s.csr.val))).setCsr
      { s.csr with rlen := BitVec.ofNat 16 (varint s.csr.val).length })

/-- VDEC (R147): BAD_LENGTH, then MALFORMED (R168); `OFF` advances past the value. -/
def execVdec (s : State) : Answer :=
  if s.lenTooLarge then failCommand (encode .vdec) .badLength s
  else
    match varintDecode (s.ibBytes s.lenOperand) s.offOperand with
    | none => failCommand (encode .vdec) .malformed s
    | some (v, newOff) =>
      completeCommand .vdec .none (s.setCsr { s.csr with
        val := v, rlen := BitVec.ofNat 16 (newOff - s.offOperand), off := BitVec.ofNat 16 newOff })

/-- PACK (R148): BAD_LENGTH for `CNT > NW`, then BAD_LENGTH for a stream that does not fit `OB` (R168). -/
def execPack (s : State) : Answer :=
  let n := s.cntOperand
  let stream := encodeStream (s.dltElements n)
  if s.cntTooLarge then failCommand (encode .pack) .badLength s
  else if s.params.nb < stream.length then failCommand (encode .pack) .badLength s
  else
    completeCommand .pack .none
      ((s.setOb (s.ob.writeFrom 0 stream)).setCsr
        { s.csr with rlen := BitVec.ofNat 16 stream.length, rcnt := BitVec.ofNat 16 n })

/-- UNPACK (R149): BAD_LENGTH for `LEN > NB`, then MALFORMED, then BAD_LENGTH for more than `NW` values (R168). -/
def execUnpack (s : State) : Answer :=
  let n := s.lenOperand
  if s.lenTooLarge then failCommand (encode .unpack) .badLength s
  else
    match decodeStream (s.ibBytes n) with
    | none => failCommand (encode .unpack) .malformed s
    | some deltas =>
      if s.params.nw < deltas.length then failCommand (encode .unpack) .badLength s
      else
        completeCommand .unpack .none
          ((s.setDlt (s.dlt.writeFrom 0 deltas)).setCsr
            { s.csr with rcnt := BitVec.ofNat 16 deltas.length, rlen := BitVec.ofNat 16 n })

end Sys2Proof.Machine
end

