-- ==== Sys2Proof/Machine/Dispatch.lean ====
section
/-! DEFINITION. The command's meaning, one arm per command (R61). -/

namespace Sys2Proof.Machine

def exec (i : Instr) (s : State) : Host.Outcome State Fault Refusal :=
  match i with
  | .nop => Sys2Proof.Machine.execNop s
  | .clrs => Sys2Proof.Machine.execClrs s
  | .sreset => Sys2Proof.Machine.execSreset s
  | .crc16 => Sys2Proof.Machine.execCrc16 s
  | .crcapp => Sys2Proof.Machine.execCrcapp s
  | .crcvfy => Sys2Proof.Machine.execCrcvfy s
  | .bldrd => Sys2Proof.Machine.execBldrd s
  | .bldwr => Sys2Proof.Machine.execBldwr s
  | .parse => Sys2Proof.Machine.execParse s
  | .denc => Sys2Proof.Machine.execDenc s
  | .ddec => Sys2Proof.Machine.execDdec s
  | .zzenc => Sys2Proof.Machine.execZzenc s
  | .zzdec => Sys2Proof.Machine.execZzdec s
  | .venc => Sys2Proof.Machine.execVenc s
  | .vdec => Sys2Proof.Machine.execVdec s
  | .pack => Sys2Proof.Machine.execPack s
  | .unpack => Sys2Proof.Machine.execUnpack s

end Sys2Proof.Machine
end

