-- ==== Sys2Proof/Machine/Port.lean ====
section
/-! DEFINITION. The host port: HostRead, HostWrite, refused accesses (20_memory.md R43 to R45), and the events of the
total order (R50, R181). -/

namespace Sys2Proof.Machine

/-- A write of the command word `op` to `CSR.CMD` (R14, R92): the command runs to its end; a reserved word ends at once
with ILLEGAL_CMD (R63, R167). -/
def runCommand (op : Byte) (s : State) : Answer :=
  match decode op with
  | .ok i => exec i s
  | .error _ => failCommand op .illegalCmd s

/-- `HostRead(space, index)` (R43): the location's value is returned and nothing changes. A refused read (R45) sets
`STICKY.ACCESS` and returns a fresh free value (assumption 4). -/
def hostRead (space index : Nat) (s : State) : State :=
  match decodeLocation s.params space index with
  | some loc => s.pushReturned (s.load loc)
  | none => ((refuseAccess s).pushReturned (Config.refusedRead s.draws)).nextDraw

/-- A write to an existing location (R44): to `CMD` it runs a command, elsewhere it stores; to a read-only CSR it is
refused (R45). -/
def writeLocation (loc : Location) (v : Dword) (s : State) : Answer :=
  match loc with
  | .csr .cmd => runCommand (v.setWidth 8) s
  | loc => .next ((s.store v loc).getD (refuseAccess s))

/-- `HostWrite(space, index, value)` (R44); refused where there is no such location (R45). -/
def hostWrite (space index : Nat) (v : Dword) (s : State) : Answer :=
  match decodeLocation s.params space index with
  | some loc => writeLocation loc v s
  | none => .next (refuseAccess s)

/-- One event of the total order (R50, R181, R186). -/
def applyEvent (e : HostEvent) (s : State) : Answer :=
  match e with
  | .read space index => .next (hostRead space index s)
  | .write space index v => hostWrite space index v s
  | .reset => .next (externalReset s)

/-- A state whose next host event is the write of a command word: the word's `nbits` bits stand on the port, and the
events that were pending come after it. -/
def withCommandWord (s : State) (nbits w : Nat) : State :=
  s.setScript (.write 0 0 (portWord nbits w) :: s.script)

end Sys2Proof.Machine
end

