-- ==== Sys2Proof/Machine/Step.lean ====
section
/-! DEFINITION. One step: the next event of the host's order takes effect (R50, R186; assumption 5). -/

namespace Sys2Proof.Machine

/-- One step. The first pending host event takes effect, with the rest still pending. With none pending nothing happens:
the engine acts only inside a write to `CSR.CMD` (R50), has no halt (R186), and stays ready (R90; assumption 6). -/
def step (s : State) : Host.Outcome State Fault Refusal :=
  match s.script with
  | [] => .next s
  | e :: rest => applyEvent e (s.setScript rest)

/-- The state in which the host's next access writes the command word `w` to `CSR.CMD`, so that the next step runs that
command (assumption 5: how a program comes to run). -/
def State.withFetchWord (s : State) (nbits w : Nat) : State := withCommandWord s nbits w

end Sys2Proof.Machine
end

