-- ==== Sys2Proof/Machine/Script.lean ====
section
/-! DEFINITION. The notation for host scripts (30_encoding.md R64) and its pseudo-statements (R65), as the events they
stand for. -/

namespace Sys2Proof.Script

/-- `wr NAME, v` -/
def wr (name : CsrName) (v : Dword) : HostEvent := .write 0 (csrNumber name) v

/-- `wr S[i], v` -/
def wrElement (b : BufferName) (i : Nat) (v : Dword) : HostEvent := .write (bufferSpace b) i v

/-- `rd NAME` -/
def rd (name : CsrName) : HostEvent := .read 0 (csrNumber name)

/-- `rd S[i]` -/
def rdElement (b : BufferName) (i : Nat) : HostEvent := .read (bufferSpace b) i

/-- `cmd MNEMONIC` -/
def cmd (i : Instr) : HostEvent := .write 0 0 ((encode i).setWidth 64)

/-- `fill S, v0 v1 ...` from index `at` on. -/
def fillFrom (b : BufferName) (start : Nat) : List Dword → Script
  | [] => []
  | v :: vs => wrElement b start v :: fillFrom b (start + 1) vs

/-- `fill S, v0 v1 ...` -/
def fill (b : BufferName) (vs : List Dword) : Script := fillFrom b 0 vs

/-- `crc n` -/
def crc (n : Dword) : Script := [wr .len n, cmd .crc16]

/-- `readreq s, a, n` -/
def readreq (slave addr count : Dword) : Script := [wr .slave slave, wr .addr addr, wr .data count, cmd .bldrd]

/-- `writereq s, a, v` -/
def writereq (slave addr value : Dword) : Script := [wr .slave slave, wr .addr addr, wr .data value, cmd .bldwr]

/-- `parse n` -/
def parse (n : Dword) : Script := [wr .len n, cmd .parse]

/-- `compress n` -/
def compress (n : Dword) : Script := [wr .cnt n, cmd .denc, cmd .pack]

/-- `expand n`: its `rd RCNT` gives `m`, which the host then writes to `CNT`. A script is a fixed list, so `m` is an
argument here (assumption 5). -/
def expand (n m : Dword) : Script := [wr .len n, cmd .unpack, rd .rcnt, wr .cnt m, cmd .ddec]

end Sys2Proof.Script
end

