-- ==== Sys2Proof/Safety.lean ====
section
/-! DEFINITION. What a safe run is, in the terms the statements use: the invariant of the state, the tables of what a
command may write (R13, R42), a run that has gone wrong (R186), and the host's own tests of a result (R123, R191 to
R193), which are host software and no part of the engine. -/

namespace Sys2Proof.Machine

/-! ### The invariant -/

/-- Every listed index is below the buffer's size (R40, R166). -/
def Memory.within {w : Nat} (size : Nat) (m : Memory w) : Bool := m.all fun e => decide (e.1 < size)

/-- The five buffers are in canonical form. -/
def State.buffersCanonical (s : State) : Bool :=
  Memory.wf s.ib && Memory.wf s.ob && Memory.wf s.ser && Memory.wf s.dlt && Memory.wf s.reg

/-- The five buffers hold nothing outside their index ranges (R32 to R35). -/
def State.buffersWithin (s : State) : Bool :=
  Memory.within s.params.nb s.ib && Memory.within s.params.nb s.ob && Memory.within s.params.nw s.ser &&
    Memory.within s.params.nw s.dlt && Memory.within Config.regCount s.reg

/-- The field values of `STATUS` that can appear (R15): ERR at most 7, KIND non-zero only with ERR = 0, the reserved
bits 0. -/
def statusLegal (st : Byte) : Bool :=
  decide ((statusErr st).toNat ≤ 7) && decide (statusReserved st = 0) &&
    (decide (statusKind st = 0) || decide (statusErr st = 0))

/-- `STICKY` holds the bit of what `STATUS` reports (R16): bit `n` while ERR is `n`, bit 0 while KIND is EXCEPTION. -/
def stickyCovers (st : Byte) (sticky : BitVec 9) : Bool :=
  (decide (statusErr st = 0) || sticky.getLsbD (statusErr st).toNat) &&
    (decide (statusKind st ≠ 2) || sticky.getLsbD 0)

/-- `CMD` and `STATUS` describe one command: a non-zero KIND is PARSE's (R15), and ERR is ILLEGAL_CMD exactly while `CMD`
holds a reserved opcode (R63, R167). -/
def Csrs.commandDescribed (c : Csrs) : Bool :=
  (decide (statusKind c.status = 0) || decide (c.cmd = encode .parse)) &&
    (decide (statusErr c.status = 7) == (decode c.cmd).toOption.isNone)

/-- The result registers agree with the KIND that `STATUS` reports (R115, R119, R120). -/
def Csrs.kindDescribed (p : Params) (c : Csrs) : Bool :=
  (decide (statusKind c.status ≠ 1) ||
      (decide (c.rcnt.toNat ≤ Config.regCount) && decide (c.rfunc = 0x03) && decide (c.exc = 0) && decide (c.reason = 0))) &&
    (decide (statusKind c.status ≠ 2) ||
      (decide (c.rcnt = 0) && c.rfunc.getLsbD 7 && decide (c.reason = excReason p c.exc))) &&
    (decide (statusKind c.status ≠ 3) ||
      (decide (c.rcnt = 0) && decide (c.exc = 0) && decide (c.reason = 0) && !c.rfunc.getLsbD 7 &&
        decide (c.rfunc ≠ 0x03)))

/-- The result registers never report more than a buffer holds, nor a reason index above 9 (R25, R26, R30, R166). -/
def Csrs.resultsWithin (p : Params) (c : Csrs) : Bool :=
  decide (c.rlen.toNat ≤ p.nb) && decide (c.rcnt.toNat ≤ max p.nw Config.regCount) && decide (c.reason.toNat ≤ 9)

/-- The invariant of every reachable state of every engine: legal parameters (R1, R3), canonical buffers inside their
ranges, and CSRs that only hold what the rules can leave in them. -/
structure State.Inv (s : State) : Prop where
  paramsWf : s.params.wf = true
  canonical : s.buffersCanonical = true
  within : s.buffersWithin = true
  legal : statusLegal s.csr.status = true
  covered : stickyCovers s.csr.status s.csr.sticky = true
  command : s.csr.commandDescribed = true
  kind : s.csr.kindDescribed s.params = true
  results : s.csr.resultsWithin s.params = true
  fresh : s.epoch < s.draws

/-! ### What a command may write -/

/-- The column "engine writes it in" of the CSR table (R13), but for CMD, STATUS and STICKY. SRESET writes every register
(R95). -/
def writesResult : Instr → CsrName → Bool
  | .sreset, _ => true
  | .crc16, r => r == .crc
  | .crcapp, r => r == .crc || r == .rlen
  | .crcvfy, r => r == .crc
  | .bldrd, r => r == .crc || r == .rlen
  | .bldwr, r => r == .crc || r == .rlen
  | .parse, r => r == .crc || r == .rcnt || r == .raddr || r == .rfunc || r == .exc || r == .reason
  | .denc, r => r == .rcnt
  | .ddec, r => r == .rcnt
  | .zzenc, r => r == .val
  | .zzdec, r => r == .val
  | .venc, r => r == .rlen
  | .vdec, r => r == .val || r == .off || r == .rlen
  | .pack, r => r == .rlen || r == .rcnt
  | .unpack, r => r == .rlen || r == .rcnt
  | .nop, _ => false
  | .clrs, _ => false

/-- The buffer a command writes, if any (R42). -/
def outputBuffer : Instr → Option BufferName
  | .nop => none
  | .clrs => none
  | .sreset => none
  | .crc16 => none
  | .crcapp => some .ob
  | .crcvfy => none
  | .bldrd => some .ob
  | .bldwr => some .ob
  | .parse => some .reg
  | .denc => some .dlt
  | .ddec => some .ser
  | .zzenc => none
  | .zzdec => none
  | .venc => some .ob
  | .vdec => none
  | .pack => some .ob
  | .unpack => some .dlt

/-- The number of elements, from index 0, that a command ended in state `t` without error has written to its output
buffer (R42): `RLEN` for `OB`, `RCNT` for the others. -/
def writtenCount (b : BufferName) (t : State) : Nat :=
  match b with
  | .ib => 0
  | .ob => t.csr.rlen.toNat
  | .ser => t.csr.rcnt.toNat
  | .dlt => t.csr.rcnt.toNat
  | .reg => t.csr.rcnt.toNat

/-- Two states give a command the same inputs (R38, R62): the same parameters, the same CSRs, and the same elements of
the input ranges `IB[0..LEN)`, `SER[0..CNT)` and `DLT[0..CNT)`, a range that exceeds its buffer counting up to the
buffer's end. -/
def sameInputs (s s' : State) : Prop :=
  s.params = s'.params ∧ s.csr = s'.csr ∧
    (∀ k, k < s.lenOperand → k < s.params.nb → s.readIb k = s'.readIb k) ∧
    (∀ k, k < s.cntOperand → k < s.params.nw → s.readSer k = s'.readSer k) ∧
    (∀ k, k < s.cntOperand → k < s.params.nw → s.readDlt k = s'.readDlt k)

/-! ### Ends -/

/-- The state after the error end of the command word `op` with error number `e` (R163): `CMD`, `STATUS` and `STICKY`
are written, nothing else. -/
def State.afterError (s : State) (op : Byte) (e : Nat) : State :=
  { s with csr := { s.csr with cmd := op, status := BitVec.ofNat 8 e, sticky := s.csr.sticky ||| (1#9 <<< e) } }

/-- The first `n` bytes of `IB` end in the CRC of the bytes before them, low byte first (R67, R69, R103). -/
def State.endsInCrc (s : State) (n : Nat) : Prop :=
  s.readIb (n - 2) = (crc16 (s.ibBytes (n - 2))).extractLsb' 0 8 ∧
    s.readIb (n - 1) = (crc16 (s.ibBytes (n - 2))).extractLsb' 8 8

/-- The exact output element `i` of a delta encoding of `SER` (R77, R130): the first value, then each difference. -/
def State.exactDelta (s : State) (i : Nat) : Int :=
  if i = 0 then (s.readSer 0).toInt else (s.readSer i).toInt - (s.readSer (i - 1)).toInt

/-! ### Runs -/

/-- A run has gone wrong in the engine's own terms when `STICKY` is not 0 (R186). -/
def goneWrong (s : State) : Bool := decide (s.csr.sticky ≠ 0)

/-- `k` steps of the machine. -/
def runSteps (k : Nat) (s : State) : Answer := Sys2Proof.core.run k s

/-! ### The host's tests of a result -/

/-- The reason strings, for the host (R123); the engine stores none. -/
def reasonText (index : Nat) : String :=
  match index with
  | 1 => "Illegal Function"
  | 2 => "Illegal Data Address"
  | 3 => "Illegal Data Value"
  | 4 => "Slave Device Failure"
  | 5 => "Acknowledge"
  | 6 => "Slave Device Busy"
  | 7 => "Memory Parity Error"
  | 8 => "Gateway Path Unavailable"
  | 9 => "Gateway Target Failed to Respond"
  | _ => "Unknown Exception"

/-- A PARSE after which the host counts its attempt as failed (R191): TOO_SHORT, CRC_MISMATCH, BAD_BYTE_COUNT, or an
exception response. -/
def attemptFailed (s : State) : Bool :=
  decide (statusErr s.csr.status = 1) || decide (statusErr s.csr.status = 2) || decide (statusErr s.csr.status = 3) ||
    decide (statusKind s.csr.status = 2)

/-- A PARSE whose registers the host returns to its caller: only if non-empty (R192). -/
def readUsable (s : State) : Bool := decide (statusKind s.csr.status = 1) && decide (s.csr.rcnt ≠ 0)

/-- The host's echo test of a write (R193): KIND = OTHER, 8 bytes, each equal to the request's. -/
def echoMatches (s : State) : Bool :=
  decide (statusKind s.csr.status = 3) && decide (s.lenOperand = 8) &&
    (List.range 8).all fun k => decide (s.readIb k = s.readOb k)

end Sys2Proof.Machine
end

