-- ==== Sys2Proof/Certificates/Slice0/Obligations.lean ====
section
/-! DEFINITION. The statements for the provers. Each docstring names the rule of spec/ it formalises; a statement that
rests on a choice of the model names its log entry. -/

open Sys2Proof Sys2Proof.Machine

/-! ### Decoding and encoding -/

/-- R60, R61: every command's opcode decodes to that command. -/
def Obligations.EveryOpcodeDecodesToItsCommand : Prop :=
  ∀ i : Instr, decode (encode i) = .ok i

/-- R61: the decoder is an exact match of all 8 bits against the opcode map, whose rows are written out here with their
UNIT and FN columns. -/
def Obligations.DecodingIsTheOpcodeMap : Prop :=
  ∃ rows : List (Byte × BitVec 4 × BitVec 4 × Instr),
    rows =
      [(0x00, 0, 0, .nop), (0x01, 0, 1, .clrs), (0x02, 0, 2, .sreset), (0x10, 1, 0, .crc16), (0x11, 1, 1, .crcapp),
       (0x12, 1, 2, .crcvfy), (0x20, 2, 0, .bldrd), (0x21, 2, 1, .bldwr), (0x22, 2, 2, .parse), (0x30, 3, 0, .denc),
       (0x31, 3, 1, .ddec), (0x40, 4, 0, .zzenc), (0x41, 4, 1, .zzdec), (0x42, 4, 2, .venc), (0x43, 4, 3, .vdec),
       (0x44, 4, 4, .pack), (0x45, 4, 5, .unpack)] ∧
    (∀ op i, decode op = .ok i ↔ ∃ unit fn, (op, unit, fn, i) ∈ rows) ∧
    (∀ op unit fn i, (op, unit, fn, i) ∈ rows → op.extractLsb' 4 4 = unit ∧ op.extractLsb' 0 4 = fn)

/-- R63: the values outside the map are reserved, are 239 in number, and the decoder refuses each by name. -/
def Obligations.ReservedOpcodesAreRefusedByTheDecoder : Prop :=
  (∀ op : Byte, (∀ i, encode i ≠ op) → decode op = .error (.reservedOpcode op)) ∧
    ((List.range 256).filter fun n => (decode (BitVec.ofNat 8 n)).toOption.isNone).length = 239

/-- R61: a few words of the opcode map, one or more of each unit, decode to the commands they stand for. A sanity
statement. -/
def Obligations.WordsOfEachUnitDecode : Prop :=
  decode 0b00000010#8 = .ok .sreset ∧ decode 0b00010001#8 = .ok .crcapp ∧ decode 0b00100010#8 = .ok .parse ∧
    decode 0b00110001#8 = .ok .ddec ∧ decode 0b01000011#8 = .ok .vdec ∧ decode 0b01000101#8 = .ok .unpack

/-! ### The step -/

/-- R14, R92: when the host's next event writes a command word that decodes to `i`, the step is `exec` of `i`, with that
event taken from the script; only the low 8 bits of the port value count (R39). -/
def Obligations.StepRunsTheDecodedCommand : Prop :=
  ∀ (s : State) (v : Dword) (rest : Script) (i : Instr),
    s.script = .write 0 0 v :: rest → decode (v.setWidth 8) = .ok i → step s = exec i { s with script := rest }

/-- R167: a write of a reserved opcode ends with ILLEGAL_CMD: CMD holds the value, STATUS is 0x07, the sticky bit is set,
nothing else of the engine changes. -/
def Obligations.ReservedOpcodeEndsWithIllegalCmd : Prop :=
  ∀ (s : State) (v : Dword) (rest : Script),
    s.script = .write 0 0 v :: rest → (∀ i, encode i ≠ v.setWidth 8) →
      step s = .next { s with
        script := rest,
        csr := { s.csr with cmd := v.setWidth 8, status := 0x07, sticky := s.csr.sticky ||| 0x080 } }

/-- R97, R186: a run of a host script completes: as many steps as the script has events lead to a state with no event
left, with the parameters unchanged, and with one value returned for each read, after those returned before. -/
def Obligations.EveryScriptRunsToItsEnd : Prop :=
  ∀ s : State, ∃ t : State,
    runSteps s.script.length s = .next t ∧ t.script = [] ∧ t.params = s.params ∧
      ∃ values : List Dword,
        t.returned = s.returned ++ values ∧
          values.length = (s.script.filter fun e => match e with | .read _ _ => true | .write _ _ _ => false | .reset => false).length

/-! ### Reset -/

/-- R36: after reset, the initial one and one applied by the host, every CSR holds 0. -/
def Obligations.ResetClearsEveryRegister : Prop :=
  (∀ r : CsrName, State.reset.csr.load r = 0) ∧
    ∀ (s : State) (rest : Script), s.script = .reset :: rest →
      ∃ t, step s = .next t ∧ ∀ r : CsrName, t.csr.load r = 0

/-- R37, R180: the external reset makes every buffer element unspecified: it reads the free value of a draw at or above the
counter `draws`, so a later draw than that of the epoch before it (`s.epoch < s.draws`); the counter moves past it, and it
never comes down (NoStepTakesADrawAgain), so no earlier reset has used that draw. The parameters, the events still pending
and the values returned stay. MODEL'S CHOICE: the free value and the draw counter (assumption 3), what stays
(assumption 7). -/
def Obligations.ResetMakesBuffersUnspecified : Prop :=
  ∀ (s : State) (rest : Script), s.script = .reset :: rest → s.epoch < s.draws →
    ∃ t, step s = .next t ∧ s.epoch < t.epoch ∧ s.draws ≤ t.epoch ∧ t.epoch < t.draws ∧ t.params = s.params ∧
      t.script = rest ∧ t.returned = s.returned ∧
      ∀ k, t.readIb k = Config.unwritten 8 t.epoch 1 k ∧ t.readOb k = Config.unwritten 8 t.epoch 2 k ∧
        t.readSer k = Config.unwritten 64 t.epoch 3 k ∧ t.readDlt k = Config.unwritten 32 t.epoch 4 k ∧
        t.readReg k = Config.unwritten 16 t.epoch 5 k

/-- The invariant holds right after reset (R36; MODEL'S CHOICE: the example parameters, assumptions 1 and 2). -/
def Obligations.InvariantHoldsAfterReset : Prop :=
  State.reset.Inv

/-- The invariant is kept by every step: legal parameters (R1, R3), canonical buffers inside their ranges (R40, R166),
legal STATUS fields (R15), STICKY covering STATUS (R16), CMD and STATUS describing one command (R15, R167), result
registers that agree with KIND (R115, R119, R120) and stay inside the capacities (R24 to R30). -/
def Obligations.EveryStepKeepsTheInvariant : Prop :=
  ∀ s t : State, s.Inv → step s = .next t → t.Inv

/-! ### Rules of all commands -/

/-- R163: a command word that ends with an error changes CMD, STATUS and STICKY and nothing else, by the error's
number. -/
def Obligations.ErrorEndChangesThreeRegistersOnly : Prop :=
  ∀ (op : Byte) (s t : State), runCommand op s = .next t → statusErr t.csr.status ≠ 0 →
    ∃ e : Nat, 1 ≤ e ∧ e ≤ 7 ∧ t = s.afterError op e

/-- R162: a command that ends without error, SRESET apart, leaves its opcode in CMD and `kind * 16` in STATUS, the kind
NONE unless it is a PARSE; STICKY gains bit 0 for kind EXCEPTION and is otherwise unchanged, CLRS apart. -/
def Obligations.SuccessfulEndWritesCommandAndStatus : Prop :=
  ∀ (i : Instr) (s t : State), i ≠ .sreset → exec i s = .next t → statusErr t.csr.status = 0 →
    ∃ kind : Nat, kind ≤ 3 ∧ (kind ≠ 0 ↔ i = .parse) ∧ t.csr.cmd = encode i ∧
      t.csr.status = BitVec.ofNat 8 (kind * 16) ∧
      (i ≠ .clrs → t.csr.sticky = if kind = 2 then s.csr.sticky ||| 0x001 else s.csr.sticky)

/-- R16: a set sticky bit stays set over every step whose event is not a CLRS or SRESET command or a reset. -/
def Obligations.StickyBitsStayUntilCleared : Prop :=
  ∀ (s t : State) (e : HostEvent) (rest : Script) (n : Nat),
    s.script = e :: rest → e ≠ .reset →
    (∀ v : Dword, e = .write 0 0 v → v.setWidth 8 ≠ 0x01#8 ∧ v.setWidth 8 ≠ 0x02#8) →
    step s = .next t → s.csr.sticky.getLsbD n = true → t.csr.sticky.getLsbD n = true

/-- R13: a command changes, beside CMD, STATUS and STICKY, only the registers whose column 'engine writes it in' names it
(SRESET writes all, R95). So no command but SRESET changes SLAVE, ADDR, DATA, LEN or CNT. -/
def Obligations.CommandsWriteOnlyTheirRegisters : Prop :=
  ∀ (i : Instr) (s t : State) (r : CsrName), exec i s = .next t → r ≠ .cmd → r ≠ .status → r ≠ .sticky →
    writesResult i r = false → t.csr.load r = s.csr.load r

/-- R57: a command writes only the elements of its range of R42, and only when it ends with ERR = 0; every other buffer
element keeps its value. -/
def Obligations.CommandsWriteOnlyTheirRange : Prop :=
  ∀ (i : Instr) (s t : State) (b : BufferName) (k : Nat), s.params.wf = true → exec i s = .next t →
    (statusErr t.csr.status ≠ 0 ∨ outputBuffer i ≠ some b ∨ writtenCount b t ≤ k) →
    t.load (.element b k) = s.load (.element b k)

/-- R38: no result depends on anything but the command's inputs: from two states with the same parameters, the same CSRs
and the same input elements, a command ends with the same CSRs and, without error, the same elements written. What is in
other buffer elements, what was never written, and what the host does next make no difference. -/
def Obligations.ResultsDependOnlyOnInputs : Prop :=
  ∀ (i : Instr) (s s' t t' : State), sameInputs s s' → exec i s = .next t → exec i s' = .next t' →
    t.csr = t'.csr ∧
      (statusErr t.csr.status = 0 → ∀ b k, outputBuffer i = some b → k < writtenCount b t →
        t.load (.element b k) = t'.load (.element b k))

/-! ### The host port -/

/-- R43: a host read of an existing location returns its value, zero-extended to 64 bits, and changes nothing. The 17
CSRs (R13) and the five buffers (R40) are written out. -/
def Obligations.HostReadReturnsTheElement : Prop :=
  ∀ (s : State) (rest : Script) (space index : Nat) (v : Dword),
    s.script = .read space index :: rest →
    ((space = 0 ∧ (index, v) ∈
        [(0, s.csr.cmd.setWidth 64), (1, s.csr.status.setWidth 64), (2, s.csr.sticky.setWidth 64),
         (3, s.csr.slave.setWidth 64), (4, s.csr.addr.setWidth 64), (5, s.csr.data.setWidth 64),
         (6, s.csr.len.setWidth 64), (7, s.csr.cnt.setWidth 64), (8, s.csr.off.setWidth 64),
         (9, s.csr.val.setWidth 64), (10, s.csr.crc.setWidth 64), (11, s.csr.rlen.setWidth 64),
         (12, s.csr.rcnt.setWidth 64), (13, s.csr.raddr.setWidth 64), (14, s.csr.rfunc.setWidth 64),
         (15, s.csr.exc.setWidth 64), (16, s.csr.reason.setWidth 64)]) ∨
      (space = 1 ∧ index < s.params.nb ∧ v = (s.readIb index).setWidth 64) ∨
      (space = 2 ∧ index < s.params.nb ∧ v = (s.readOb index).setWidth 64) ∨
      (space = 3 ∧ index < s.params.nw ∧ v = s.readSer index) ∨
      (space = 4 ∧ index < s.params.nw ∧ v = (s.readDlt index).setWidth 64) ∨
      (space = 5 ∧ index < 127 ∧ v = (s.readReg index).setWidth 64)) →
    step s = .next { s with script := rest, returned := s.returned ++ [v] }

/-- R44, for the CSRs: a host write of an operand register stores the value truncated to the register's width and changes
nothing else; a write of CMD runs the command. -/
def Obligations.HostWriteStoresInRegisters : Prop :=
  ∀ (s : State) (rest : Script) (index : Nat) (v : Dword), s.script = .write 0 index v :: rest →
    (index = 0 → step s = runCommand (v.setWidth 8) { s with script := rest }) ∧
    (∀ c : Csrs, (index, c) ∈
        [(3, { s.csr with slave := v.setWidth 8 }), (4, { s.csr with addr := v.setWidth 16 }),
         (5, { s.csr with data := v.setWidth 16 }), (6, { s.csr with len := v.setWidth 16 }),
         (7, { s.csr with cnt := v.setWidth 16 }), (8, { s.csr with off := v.setWidth 16 }),
         (9, { s.csr with val := v.setWidth 32 })] →
      step s = .next { s with script := rest, csr := c })

/-- R44, for the buffers: a host write of an element stores the value truncated to the element's width; every other
element and everything else keeps its value. -/
def Obligations.HostWriteStoresInBuffers : Prop :=
  ∀ (s : State) (rest : Script) (space index : Nat) (v : Dword), s.script = .write space index v :: rest →
    (space = 1 → index < s.params.nb → ∃ t, step s = .next t ∧ t = { s with script := rest, ib := t.ib } ∧
      ∀ k, t.readIb k = if k = index then v.setWidth 8 else s.readIb k) ∧
    (space = 2 → index < s.params.nb → ∃ t, step s = .next t ∧ t = { s with script := rest, ob := t.ob } ∧
      ∀ k, t.readOb k = if k = index then v.setWidth 8 else s.readOb k) ∧
    (space = 3 → index < s.params.nw → ∃ t, step s = .next t ∧ t = { s with script := rest, ser := t.ser } ∧
      ∀ k, t.readSer k = if k = index then v else s.readSer k) ∧
    (space = 4 → index < s.params.nw → ∃ t, step s = .next t ∧ t = { s with script := rest, dlt := t.dlt } ∧
      ∀ k, t.readDlt k = if k = index then v.setWidth 32 else s.readDlt k) ∧
    (space = 5 → index < 127 → ∃ t, step s = .next t ∧ t = { s with script := rest, reg := t.reg } ∧
      ∀ k, t.readReg k = if k = index then v.setWidth 16 else s.readReg k)

/-- R45, R175: an access outside the spaces, or a write of a read-only CSR, sets STICKY.ACCESS and changes nothing else;
a refused read returns an unspecified value. MODEL'S CHOICE, of the two R45 allows: the value is a draw, the free value of
a counter that advances (assumption 4). -/
def Obligations.RefusedAccessSetsAccessOnly : Prop :=
  (∀ (s : State) (rest : Script) (space index : Nat),
    s.script = .read space index :: rest → s.params.spaceSize space ≤ index →
      step s = .next { s with
        script := rest, csr := { s.csr with sticky := s.csr.sticky ||| 0x100 },
        returned := s.returned ++ [Config.refusedRead s.draws], draws := s.draws + 1 }) ∧
  (∀ (s : State) (rest : Script) (space index : Nat) (v : Dword),
    s.script = .write space index v :: rest →
      (s.params.spaceSize space ≤ index ∨ (space = 0 ∧ index ∈ [1, 2, 10, 11, 12, 13, 14, 15, 16])) →
      step s = .next { s with script := rest, csr := { s.csr with sticky := s.csr.sticky ||| 0x100 } })

/-! ### SYS unit -/

/-- R93. -/
def Obligations.NopWritesCommandAndStatusOnly : Prop :=
  ∀ s : State, exec .nop s = .next { s with csr := { s.csr with cmd := 0x00, status := 0x00 } }

/-- R94. -/
def Obligations.ClrsClearsSticky : Prop :=
  ∀ s : State, exec .clrs s = .next { s with csr := { s.csr with cmd := 0x01, status := 0x00, sticky := 0x000 } }

/-- R95: all 17 CSRs become 0, CMD included; no buffer element changes. -/
def Obligations.SresetClearsEveryRegister : Prop :=
  ∀ s : State, exec .sreset s = .next { s with csr :=
    { cmd := 0, status := 0, sticky := 0, slave := 0, addr := 0, data := 0, len := 0, cnt := 0, off := 0, val := 0,
      crc := 0, rlen := 0, rcnt := 0, raddr := 0, rfunc := 0, exc := 0, reason := 0 } }

/-! ### CRC unit -/

/-- R100: the start value, the iteration, and the order of the bytes. -/
def Obligations.Crc16FollowsItsRecurrence : Prop :=
  crc16 [] = 0xFFFF ∧
    ∀ (bytes : List Byte) (b : Byte), ∃ c : Nat → Half,
      c 0 = crc16 bytes ^^^ b.setWidth 16 ∧
        (∀ k, k < 8 → c (k + 1) = if (c k).getLsbD 0 then (c k >>> 1) ^^^ 0xA001 else c k >>> 1) ∧
        crc16 (bytes ++ [b]) = c 8

/-- The CRC values of the spec's vectors V-C1 to V-C11 (95_test_vectors.md), derived there from R100. -/
def Obligations.Crc16GivesTheListedValues : Prop :=
  crc16 [0x00] = 0x40BF ∧ crc16 [0xFF] = 0x00FF ∧ crc16 [0x11, 0x03, 0x00, 0x00, 0x00, 0x01] = 0x9A86 ∧
    crc16 [0x11] = 0x4C7F ∧ crc16 [0x11, 0x83, 0x02] = 0x34C1 ∧ crc16 [0x11, 0x03] = 0xE14D ∧
    crc16 [0x31, 0x32, 0x33, 0x34, 0x35, 0x36, 0x37, 0x38, 0x39] = 0x4B37 ∧
    crc16 [0x11, 0x03, 0x00, 0x6B, 0x00, 0x03] = 0x8776

/-- R104, residue law: a sequence followed by its own CRC, low byte first, has the CRC 0. -/
def Obligations.CrcOfAFrameWithItsCrcIsZero : Prop :=
  ∀ m : List Byte, crc16 (m ++ [(crc16 m).extractLsb' 0 8, (crc16 m).extractLsb' 8 8]) = 0

/-- R104: every single-bit change of a sequence changes its CRC. -/
def Obligations.CrcDetectsEverySingleBitChange : Prop :=
  ∀ (before after : List Byte) (b : Byte) (j : Nat), j < 8 →
    crc16 (before ++ (b ^^^ (1#8 <<< j)) :: after) ≠ crc16 (before ++ b :: after)

/-- R101. -/
def Obligations.Crc16CommandResult : Prop :=
  ∀ s : State,
    (s.lenOperand ≤ s.params.nb →
      exec .crc16 s = .next { s with csr :=
        { s.csr with cmd := 0x10, status := 0x00, crc := crc16 (s.ibBytes s.lenOperand) } }) ∧
    (s.params.nb < s.lenOperand → exec .crc16 s = .next (s.afterError 0x10 6))

/-- R102. -/
def Obligations.CrcappCommandResult : Prop :=
  ∀ s : State,
    (s.lenOperand + 2 ≤ s.params.nb → ∃ t, exec .crcapp s = .next t ∧
      t = { s with ob := t.ob, csr := { s.csr with
        cmd := 0x11, status := 0x00, crc := crc16 (s.ibBytes s.lenOperand),
        rlen := BitVec.ofNat 16 (s.lenOperand + 2) } } ∧
      ∀ k, t.readOb k =
        if k < s.lenOperand then s.readIb k
        else if k = s.lenOperand then (crc16 (s.ibBytes s.lenOperand)).extractLsb' 0 8
        else if k = s.lenOperand + 1 then (crc16 (s.ibBytes s.lenOperand)).extractLsb' 8 8
        else s.readOb k) ∧
    (s.params.nb < s.lenOperand + 2 → exec .crcapp s = .next (s.afterError 0x11 6))

/-- R103, with its errors in their order (R168). -/
def Obligations.CrcvfyCommandResult : Prop :=
  ∀ s : State,
    (s.params.nb < s.lenOperand → exec .crcvfy s = .next (s.afterError 0x12 6)) ∧
    (s.lenOperand ≤ s.params.nb → s.lenOperand < 2 → exec .crcvfy s = .next (s.afterError 0x12 1)) ∧
    (s.lenOperand ≤ s.params.nb → 2 ≤ s.lenOperand → ¬ s.endsInCrc s.lenOperand →
      exec .crcvfy s = .next (s.afterError 0x12 2)) ∧
    (s.lenOperand ≤ s.params.nb → 2 ≤ s.lenOperand → s.endsInCrc s.lenOperand →
      exec .crcvfy s = .next { s with csr :=
        { s.csr with cmd := 0x12, status := 0x00, crc := crc16 (s.ibBytes (s.lenOperand - 2)) } })

/-! ### FRAME unit -/

/-- R110, R125: the read request of R70, for every operand. -/
def Obligations.BldrdCommandResult : Prop :=
  ∀ (s : State) (c : Half),
    c = crc16 [s.csr.slave, 0x03, s.csr.addr.extractLsb' 8 8, s.csr.addr.extractLsb' 0 8,
      s.csr.data.extractLsb' 8 8, s.csr.data.extractLsb' 0 8] →
    ∃ t, exec .bldrd s = .next t ∧
      t = { s with ob := t.ob, csr := { s.csr with cmd := 0x20, status := 0x00, crc := c, rlen := 8 } } ∧
      t.readOb 0 = s.csr.slave ∧ t.readOb 1 = 0x03 ∧ t.readOb 2 = s.csr.addr.extractLsb' 8 8 ∧
      t.readOb 3 = s.csr.addr.extractLsb' 0 8 ∧ t.readOb 4 = s.csr.data.extractLsb' 8 8 ∧
      t.readOb 5 = s.csr.data.extractLsb' 0 8 ∧ t.readOb 6 = c.extractLsb' 0 8 ∧ t.readOb 7 = c.extractLsb' 8 8 ∧
      ∀ k, 8 ≤ k → t.readOb k = s.readOb k

/-- R111, R125: the write request of R71, for every operand. -/
def Obligations.BldwrCommandResult : Prop :=
  ∀ (s : State) (c : Half),
    c = crc16 [s.csr.slave, 0x06, s.csr.addr.extractLsb' 8 8, s.csr.addr.extractLsb' 0 8,
      s.csr.data.extractLsb' 8 8, s.csr.data.extractLsb' 0 8] →
    ∃ t, exec .bldwr s = .next t ∧
      t = { s with ob := t.ob, csr := { s.csr with cmd := 0x21, status := 0x00, crc := c, rlen := 8 } } ∧
      t.readOb 0 = s.csr.slave ∧ t.readOb 1 = 0x06 ∧ t.readOb 2 = s.csr.addr.extractLsb' 8 8 ∧
      t.readOb 3 = s.csr.addr.extractLsb' 0 8 ∧ t.readOb 4 = s.csr.data.extractLsb' 8 8 ∧
      t.readOb 5 = s.csr.data.extractLsb' 0 8 ∧ t.readOb 6 = c.extractLsb' 0 8 ∧ t.readOb 7 = c.extractLsb' 8 8 ∧
      ∀ k, 8 ≤ k → t.readOb k = s.readOb k

/-- R113, R114, R168: PARSE's length tests and its CRC test, before any content is looked at. -/
def Obligations.ParseTestsLengthThenCrc : Prop :=
  ∀ s : State,
    (s.params.nb < s.lenOperand → exec .parse s = .next (s.afterError 0x22 6)) ∧
    (s.lenOperand ≤ s.params.nb → s.lenOperand < 4 → exec .parse s = .next (s.afterError 0x22 1)) ∧
    (s.lenOperand ≤ s.params.nb → 4 ≤ s.lenOperand → ¬ s.endsInCrc s.lenOperand →
      exec .parse s = .next (s.afterError 0x22 2))

/-- R115, R121: a frame whose CRC matches and whose function byte has bit 7 set: TOO_SHORT with 4 bytes, else an
exception response with its code and reason index. -/
def Obligations.ParseOfExceptionResponse : Prop :=
  ∀ s : State, s.lenOperand ≤ s.params.nb → 4 ≤ s.lenOperand → s.endsInCrc s.lenOperand →
    (s.readIb 1).getLsbD 7 = true →
    (s.lenOperand = 4 → exec .parse s = .next (s.afterError 0x22 1)) ∧
    (5 ≤ s.lenOperand → exec .parse s = .next { s with csr := { s.csr with
      cmd := 0x22, status := 0x20, sticky := s.csr.sticky ||| 0x001,
      crc := crc16 (s.ibBytes (s.lenOperand - 2)), rcnt := 0, raddr := s.readIb 0, rfunc := s.readIb 1,
      exc := s.readIb 2, reason := (s.params.excMap.lookup (s.readIb 2)).getD 0 } })

/-- R116, R117, R118, R119: a frame whose CRC matches and whose function byte is 0x03: TOO_SHORT with 4 bytes,
BAD_BYTE_COUNT for a count that is not `LEN - 5` or is odd, else the registers, high byte first. -/
def Obligations.ParseOfReadResponse : Prop :=
  ∀ (s : State) (count : Nat), s.lenOperand ≤ s.params.nb → 4 ≤ s.lenOperand → s.endsInCrc s.lenOperand →
    s.readIb 1 = 0x03 → count = (s.readIb 2).toNat →
    (s.lenOperand = 4 → exec .parse s = .next (s.afterError 0x22 1)) ∧
    (5 ≤ s.lenOperand → (count ≠ s.lenOperand - 5 ∨ count % 2 = 1) →
      exec .parse s = .next (s.afterError 0x22 3)) ∧
    (5 ≤ s.lenOperand → count = s.lenOperand - 5 → count % 2 = 0 → ∃ t, exec .parse s = .next t ∧
      t = { s with reg := t.reg, csr := { s.csr with
        cmd := 0x22, status := 0x10, crc := crc16 (s.ibBytes (s.lenOperand - 2)),
        rcnt := BitVec.ofNat 16 (count / 2), raddr := s.readIb 0, rfunc := 0x03, exc := 0, reason := 0 } } ∧
      ∀ k, (k < count / 2 →
          (t.readReg k).toNat = (s.readIb (3 + 2 * k)).toNat * 256 + (s.readIb (4 + 2 * k)).toNat) ∧
        (count / 2 ≤ k → t.readReg k = s.readReg k))

/-- R120: any other function byte of a frame whose CRC matches. -/
def Obligations.ParseOfOtherResponse : Prop :=
  ∀ s : State, s.lenOperand ≤ s.params.nb → 4 ≤ s.lenOperand → s.endsInCrc s.lenOperand →
    (s.readIb 1).getLsbD 7 = false → s.readIb 1 ≠ 0x03 →
    exec .parse s = .next { s with csr := { s.csr with
      cmd := 0x22, status := 0x30, crc := crc16 (s.ibBytes (s.lenOperand - 2)), rcnt := 0, raddr := s.readIb 0,
      rfunc := s.readIb 1, exc := 0, reason := 0 } }

/-- R3, R121: in every engine, a code outside 0x01 to 0x0B has reason 0, code 0x02 has reason 2, and no reason is above
9. -/
def Obligations.ReasonIndexOfACode : Prop :=
  ∀ (p : Params) (code : Byte), p.wf = true →
    (excReason p code).toNat ≤ 9 ∧ (code.toNat = 0 ∨ 11 < code.toNat → excReason p code = 0) ∧
      excReason p 0x02 = 2

/-! ### DELTA unit -/

/-- R130, R132: the first value and the exact differences, when each fits 32 signed bits; otherwise RANGE with nothing
written. -/
def Obligations.DencCommandResult : Prop :=
  ∀ s : State,
    (s.params.nw < s.cntOperand → exec .denc s = .next (s.afterError 0x30 6)) ∧
    (s.cntOperand ≤ s.params.nw →
      (∃ k, k < s.cntOperand ∧ (s.exactDelta k < -2 ^ 31 ∨ 2 ^ 31 - 1 < s.exactDelta k)) →
      exec .denc s = .next (s.afterError 0x30 5)) ∧
    (s.cntOperand ≤ s.params.nw →
      (∀ k, k < s.cntOperand → -2 ^ 31 ≤ s.exactDelta k ∧ s.exactDelta k ≤ 2 ^ 31 - 1) →
      ∃ t, exec .denc s = .next t ∧
        t = { s with dlt := t.dlt, csr := { s.csr with cmd := 0x30, status := 0x00, rcnt := s.csr.cnt } } ∧
        ∀ k, (k < s.cntOperand → (t.readDlt k).toInt = s.exactDelta k) ∧
          (s.cntOperand ≤ k → t.readDlt k = s.readDlt k))

/-- R131, R133, R135: the running sums, exact in 64 signed bits. -/
def Obligations.DdecCommandResult : Prop :=
  ∀ s : State,
    (s.params.nw < s.cntOperand → exec .ddec s = .next (s.afterError 0x31 6)) ∧
    (s.cntOperand ≤ s.params.nw → ∃ t, exec .ddec s = .next t ∧
      t = { s with ser := t.ser, csr := { s.csr with cmd := 0x31, status := 0x00, rcnt := s.csr.cnt } } ∧
      (0 < s.cntOperand → (t.readSer 0).toInt = (s.readDlt 0).toInt) ∧
      (∀ k, k + 1 < s.cntOperand →
        (t.readSer (k + 1)).toInt = (t.readSer k).toInt + (s.readDlt (k + 1)).toInt) ∧
      ∀ k, s.cntOperand ≤ k → t.readSer k = s.readSer k)

/-- R134 (a): decoding an encoding gives the series back. -/
def Obligations.DeltaDecodeInvertsEncode : Prop :=
  ∀ (series : List Dword) (deltas : List Word), deltaEncode series = some deltas → deltaDecode deltas = series

/-- R134 (b): encoding a decoding gives the deltas back and is never RANGE, for every sequence that a buffer can hold. -/
def Obligations.DeltaEncodeInvertsDecode : Prop :=
  ∀ deltas : List Word, deltas.length ≤ 65535 → deltaEncode (deltaDecode deltas) = some deltas

/-- R134 (a) on the machine: DENC, then DDEC of the same count on the deltas DENC left, restores every element of SER,
whatever the host does to anything but DLT, CNT and the parameters in between. -/
def Obligations.DencThenDdecRestoresTheSeries : Prop :=
  ∀ s t u v : State, exec .denc s = .next t → statusErr t.csr.status = 0 → u.params = t.params →
    u.csr.cnt = s.csr.cnt → (∀ k, k < s.cntOperand → u.readDlt k = t.readDlt k) → exec .ddec u = .next v →
    statusErr v.csr.status = 0 ∧ ∀ k, k < s.cntOperand → v.readSer k = s.readSer k

/-! ### VARINT unit -/

/-- R78: the zigzag value in numbers. -/
def Obligations.ZigzagValueInNumbers : Prop :=
  ∀ p : Word, ((zigzag p).toNat : Int) = if 0 ≤ p.toInt then 2 * p.toInt else -2 * p.toInt - 1

/-- R150 (b): zigzag and unzigzag are inverse to each other. -/
def Obligations.ZigzagAndUnzigzagAreInverse : Prop :=
  (∀ p : Word, unzigzag (zigzag p) = p) ∧ ∀ u : Word, zigzag (unzigzag u) = u

/-- R76: the bytes of a varint: as many as the table gives for the value, 7 bits a byte, least-significant group first,
bit 7 set on all but the last. -/
def Obligations.VarintBytesOfAValue : Prop :=
  ∀ v : Word,
    (varint v).length =
      (if v.toNat ≤ 0x7F then 1 else if v.toNat ≤ 0x3FFF then 2 else if v.toNat ≤ 0x1FFFFF then 3
       else if v.toNat ≤ 0xFFFFFFF then 4 else 5) ∧
    ∀ k, k < (varint v).length →
      ((varint v).getD k 0).extractLsb' 0 7 = v.extractLsb' (7 * k) 7 ∧
      (((varint v).getD k 0).getLsbD 7 = true ↔ k + 1 < (varint v).length)

/-- R143: the decoder of one value. The first byte with bit 7 clear, within five, ends the value, whose groups are the
bytes' low 7 bits; MALFORMED when the bytes end before it (a), when five bytes have bit 7 set (b), or when the fifth byte
has one of bits 6:4 (c). -/
def Obligations.VarintDecodeOfAByteSequence : Prop :=
  ∀ (bytes : List Byte) (off k : Nat), k < 5 →
    (∀ j, j < k → off + j < bytes.length ∧ (bytes.getD (off + j) 0).getLsbD 7 = true) →
    (bytes.length ≤ off + k → varintDecode bytes off = none) ∧
    (off + k < bytes.length → k = 4 → (bytes.getD (off + k) 0).extractLsb' 4 3 ≠ 0 →
      varintDecode bytes off = none) ∧
    (off + k < bytes.length → k = 4 → (bytes.getD (off + k) 0).getLsbD 7 = true → varintDecode bytes off = none) ∧
    (off + k < bytes.length → (bytes.getD (off + k) 0).getLsbD 7 = false →
      (k = 4 → (bytes.getD (off + k) 0).extractLsb' 4 3 = 0) →
      ∃ v : Word, varintDecode bytes off = some (v, off + k + 1) ∧ v.toNat < 2 ^ (7 * (k + 1)) ∧
        ∀ j, j ≤ k → v.extractLsb' (7 * j) 7 = (bytes.getD (off + j) 0).extractLsb' 0 7)

/-- R150 (c): an encoded value decodes to itself, whatever bytes follow. -/
def Obligations.VarintDecodeInvertsVarint : Prop :=
  ∀ (v : Word) (tail : List Byte), varintDecode (varint v ++ tail) 0 = some (v, (varint v).length)

/-- R152: the stream is the concatenation of the varints of the zigzag values, and has between `n` and `5n` bytes. -/
def Obligations.EncodeStreamConcatenates : Prop :=
  encodeStream [] = [] ∧
    (∀ (d : Word) (ds : List Word), encodeStream (d :: ds) = varint (zigzag d) ++ encodeStream ds) ∧
    ∀ ds : List Word, ds.length ≤ (encodeStream ds).length ∧ (encodeStream ds).length ≤ 5 * ds.length

/-- R153: the stream decoder takes value after value, each from where the one before it ended, and is MALFORMED when one
of them is; the empty stream is the empty sequence. -/
def Obligations.DecodeStreamTakesValueAfterValue : Prop :=
  decodeStream [] = some [] ∧
    (∀ bytes : List Byte, bytes ≠ [] → varintDecode bytes 0 = none → decodeStream bytes = none) ∧
    ∀ (bytes : List Byte) (v : Word) (newOff : Nat), varintDecode bytes 0 = some (v, newOff) →
      decodeStream bytes = (decodeStream (bytes.drop newOff)).map (unzigzag v :: ·)

/-- R150 (a): decoding an encoded stream gives the deltas back. -/
def Obligations.DecodeStreamInvertsEncodeStream : Prop :=
  ∀ ds : List Word, decodeStream (encodeStream ds) = some ds

/-- R140, R144. -/
def Obligations.ZzencCommandResult : Prop :=
  ∀ s : State, exec .zzenc s = .next { s with csr := { s.csr with
    cmd := 0x40, status := 0x00, val := (s.csr.val <<< 1) ^^^ s.csr.val.sshiftRight 31 } }

/-- R141, R145. -/
def Obligations.ZzdecCommandResult : Prop :=
  ∀ s : State, exec .zzdec s = .next { s with csr := { s.csr with
    cmd := 0x41, status := 0x00,
    val := if s.csr.val.getLsbD 0 = false then s.csr.val >>> 1 else (s.csr.val >>> 1) ^^^ 0xFFFFFFFF } }

/-- R146. -/
def Obligations.VencCommandResult : Prop :=
  ∀ s : State, ∃ t, exec .venc s = .next t ∧
    t = { s with ob := t.ob, csr := { s.csr with
      cmd := 0x42, status := 0x00, rlen := BitVec.ofNat 16 (varint s.csr.val).length } } ∧
    ∀ k, t.readOb k = if k < (varint s.csr.val).length then (varint s.csr.val).getD k 0 else s.readOb k

/-- R147. -/
def Obligations.VdecCommandResult : Prop :=
  ∀ s : State,
    (s.params.nb < s.lenOperand → exec .vdec s = .next (s.afterError 0x43 6)) ∧
    (s.lenOperand ≤ s.params.nb → varintDecode (s.ibBytes s.lenOperand) s.offOperand = none →
      exec .vdec s = .next (s.afterError 0x43 4)) ∧
    (∀ (v : Word) (newOff : Nat), s.lenOperand ≤ s.params.nb →
      varintDecode (s.ibBytes s.lenOperand) s.offOperand = some (v, newOff) →
      newOff ≤ s.lenOperand ∧ ∃ t, exec .vdec s = .next t ∧
        t = { s with csr := { s.csr with
          cmd := 0x43, status := 0x00, val := v, rlen := t.csr.rlen, off := t.csr.off } } ∧
        t.csr.rlen.toNat = newOff - s.offOperand ∧ t.csr.off.toNat = newOff)

/-- R148. -/
def Obligations.PackCommandResult : Prop :=
  ∀ (s : State) (stream : List Byte), stream = encodeStream (s.dltElements s.cntOperand) →
    (s.params.nw < s.cntOperand → exec .pack s = .next (s.afterError 0x44 6)) ∧
    (s.cntOperand ≤ s.params.nw → s.params.nb < stream.length → exec .pack s = .next (s.afterError 0x44 6)) ∧
    (s.cntOperand ≤ s.params.nw → stream.length ≤ s.params.nb → ∃ t, exec .pack s = .next t ∧
      t = { s with ob := t.ob, csr := { s.csr with
        cmd := 0x44, status := 0x00, rlen := BitVec.ofNat 16 stream.length, rcnt := s.csr.cnt } } ∧
      ∀ k, t.readOb k = if k < stream.length then stream.getD k 0 else s.readOb k)

/-- R149, with its errors in their order (R168). -/
def Obligations.UnpackCommandResult : Prop :=
  ∀ s : State,
    (s.params.nb < s.lenOperand → exec .unpack s = .next (s.afterError 0x45 6)) ∧
    (s.lenOperand ≤ s.params.nb → decodeStream (s.ibBytes s.lenOperand) = none →
      exec .unpack s = .next (s.afterError 0x45 4)) ∧
    (∀ ds : List Word, s.lenOperand ≤ s.params.nb → decodeStream (s.ibBytes s.lenOperand) = some ds →
      (s.params.nw < ds.length → exec .unpack s = .next (s.afterError 0x45 6)) ∧
      (ds.length ≤ s.params.nw → ∃ t, exec .unpack s = .next t ∧
        t = { s with dlt := t.dlt, csr := { s.csr with
          cmd := 0x45, status := 0x00, rcnt := BitVec.ofNat 16 ds.length, rlen := s.csr.len } } ∧
        ∀ k, t.readDlt k = if k < ds.length then ds.getD k 0 else s.readDlt k))

/-- R150 (a) on the machine: PACK, then UNPACK of the bytes it left in OB, once the host has carried them to IB, restores
every delta, in every engine whose parameters are legal. -/
def Obligations.PackThenUnpackRestoresTheDeltas : Prop :=
  ∀ s t u v : State, s.params.wf = true → exec .pack s = .next t → statusErr t.csr.status = 0 →
    u.params = t.params → u.csr.len = t.csr.rlen → (∀ k, k < t.csr.rlen.toNat → u.readIb k = t.readOb k) →
    exec .unpack u = .next v →
    statusErr v.csr.status = 0 ∧ v.csr.rcnt = s.csr.cnt ∧ ∀ k, k < s.cntOperand → v.readDlt k = s.readDlt k

/-- R145, R150 (b) on the machine: ZZENC followed by ZZDEC, and ZZDEC followed by ZZENC, restores VAL, from every state. -/
def Obligations.ZzencAndZzdecRestoreVal : Prop :=
  ∀ s : State,
    (∃ t u, exec .zzenc s = .next t ∧ exec .zzdec t = .next u ∧ u.csr.val = s.csr.val) ∧
    (∃ t u, exec .zzdec s = .next t ∧ exec .zzenc t = .next u ∧ u.csr.val = s.csr.val)

/-! ### Draws of the unspecified values -/

/-- R37, R45: no step takes a draw again: `draws` never comes down, and the epoch, the draw of the unwritten elements,
stays over every step but an external reset, which takes one at or above `draws` and moves `draws` past it. So two reads of
one unwritten element between resets agree, and no reset uses the draw of an earlier one. MODEL'S CHOICE: the draw counter
(assumptions 3 and 4). -/
def Obligations.NoStepTakesADrawAgain : Prop :=
  ∀ s t : State, step s = .next t →
    s.draws ≤ t.draws ∧
      (s.script.head? ≠ some .reset → t.epoch = s.epoch) ∧
      (s.script.head? = some .reset → s.draws ≤ t.epoch ∧ t.epoch < t.draws)
end

