-- ==== Sys2Proof/Laws/Decode.lean ====
section
/-! SUPPORT. What the decoder's two answers say of the command word (R61, R63). -/

namespace Sys2Proof

/-- Where the decoder answers a command, the word is that command's opcode. -/
theorem encode_of_decode_ok {op : Byte} {i : Instr} (h : decode op = .ok i) : encode i = op := by
  unfold decode at h
  split at h <;> first
    | cases h; apply BitVec.eq_of_toNat_eq; simp only [encode]; simp_all
    | cases h

/-- Where the decoder refuses, it names the word it refuses. -/
theorem eq_of_decode_error {op : Byte} {e : DecodeError} (h : decode op = .error e) : e = .reservedOpcode op := by
  unfold decode at h
  split at h <;> cases h
  rfl

end Sys2Proof
end

