-- ==== Sys2Proof/Laws/State.lean ====
section
/-! SUPPORT. One lemma per field of State per update: what each update leaves in each field. No later proof unfolds an
update. -/

namespace Sys2Proof.Machine

/-! `State.setCsr` -/

@[simp] theorem State.setCsr_csr (s : State) (c : Csrs) : (s.setCsr c).csr = c := rfl
@[simp] theorem State.setCsr_ib (s : State) (c : Csrs) : (s.setCsr c).ib = s.ib := rfl
@[simp] theorem State.setCsr_ob (s : State) (c : Csrs) : (s.setCsr c).ob = s.ob := rfl
@[simp] theorem State.setCsr_ser (s : State) (c : Csrs) : (s.setCsr c).ser = s.ser := rfl
@[simp] theorem State.setCsr_dlt (s : State) (c : Csrs) : (s.setCsr c).dlt = s.dlt := rfl
@[simp] theorem State.setCsr_reg (s : State) (c : Csrs) : (s.setCsr c).reg = s.reg := rfl
@[simp] theorem State.setCsr_params (s : State) (c : Csrs) : (s.setCsr c).params = s.params := rfl
@[simp] theorem State.setCsr_epoch (s : State) (c : Csrs) : (s.setCsr c).epoch = s.epoch := rfl
@[simp] theorem State.setCsr_draws (s : State) (c : Csrs) : (s.setCsr c).draws = s.draws := rfl
@[simp] theorem State.setCsr_script (s : State) (c : Csrs) : (s.setCsr c).script = s.script := rfl
@[simp] theorem State.setCsr_returned (s : State) (c : Csrs) : (s.setCsr c).returned = s.returned := rfl

/-! `State.setIb` -/

@[simp] theorem State.setIb_csr (s : State) (m : Memory 8) : (s.setIb m).csr = s.csr := rfl
@[simp] theorem State.setIb_ib (s : State) (m : Memory 8) : (s.setIb m).ib = m := rfl
@[simp] theorem State.setIb_ob (s : State) (m : Memory 8) : (s.setIb m).ob = s.ob := rfl
@[simp] theorem State.setIb_ser (s : State) (m : Memory 8) : (s.setIb m).ser = s.ser := rfl
@[simp] theorem State.setIb_dlt (s : State) (m : Memory 8) : (s.setIb m).dlt = s.dlt := rfl
@[simp] theorem State.setIb_reg (s : State) (m : Memory 8) : (s.setIb m).reg = s.reg := rfl
@[simp] theorem State.setIb_params (s : State) (m : Memory 8) : (s.setIb m).params = s.params := rfl
@[simp] theorem State.setIb_epoch (s : State) (m : Memory 8) : (s.setIb m).epoch = s.epoch := rfl
@[simp] theorem State.setIb_draws (s : State) (m : Memory 8) : (s.setIb m).draws = s.draws := rfl
@[simp] theorem State.setIb_script (s : State) (m : Memory 8) : (s.setIb m).script = s.script := rfl
@[simp] theorem State.setIb_returned (s : State) (m : Memory 8) : (s.setIb m).returned = s.returned := rfl

/-! `State.setOb` -/

@[simp] theorem State.setOb_csr (s : State) (m : Memory 8) : (s.setOb m).csr = s.csr := rfl
@[simp] theorem State.setOb_ib (s : State) (m : Memory 8) : (s.setOb m).ib = s.ib := rfl
@[simp] theorem State.setOb_ob (s : State) (m : Memory 8) : (s.setOb m).ob = m := rfl
@[simp] theorem State.setOb_ser (s : State) (m : Memory 8) : (s.setOb m).ser = s.ser := rfl
@[simp] theorem State.setOb_dlt (s : State) (m : Memory 8) : (s.setOb m).dlt = s.dlt := rfl
@[simp] theorem State.setOb_reg (s : State) (m : Memory 8) : (s.setOb m).reg = s.reg := rfl
@[simp] theorem State.setOb_params (s : State) (m : Memory 8) : (s.setOb m).params = s.params := rfl
@[simp] theorem State.setOb_epoch (s : State) (m : Memory 8) : (s.setOb m).epoch = s.epoch := rfl
@[simp] theorem State.setOb_draws (s : State) (m : Memory 8) : (s.setOb m).draws = s.draws := rfl
@[simp] theorem State.setOb_script (s : State) (m : Memory 8) : (s.setOb m).script = s.script := rfl
@[simp] theorem State.setOb_returned (s : State) (m : Memory 8) : (s.setOb m).returned = s.returned := rfl

/-! `State.setSer` -/

@[simp] theorem State.setSer_csr (s : State) (m : Memory 64) : (s.setSer m).csr = s.csr := rfl
@[simp] theorem State.setSer_ib (s : State) (m : Memory 64) : (s.setSer m).ib = s.ib := rfl
@[simp] theorem State.setSer_ob (s : State) (m : Memory 64) : (s.setSer m).ob = s.ob := rfl
@[simp] theorem State.setSer_ser (s : State) (m : Memory 64) : (s.setSer m).ser = m := rfl
@[simp] theorem State.setSer_dlt (s : State) (m : Memory 64) : (s.setSer m).dlt = s.dlt := rfl
@[simp] theorem State.setSer_reg (s : State) (m : Memory 64) : (s.setSer m).reg = s.reg := rfl
@[simp] theorem State.setSer_params (s : State) (m : Memory 64) : (s.setSer m).params = s.params := rfl
@[simp] theorem State.setSer_epoch (s : State) (m : Memory 64) : (s.setSer m).epoch = s.epoch := rfl
@[simp] theorem State.setSer_draws (s : State) (m : Memory 64) : (s.setSer m).draws = s.draws := rfl
@[simp] theorem State.setSer_script (s : State) (m : Memory 64) : (s.setSer m).script = s.script := rfl
@[simp] theorem State.setSer_returned (s : State) (m : Memory 64) : (s.setSer m).returned = s.returned := rfl

/-! `State.setDlt` -/

@[simp] theorem State.setDlt_csr (s : State) (m : Memory 32) : (s.setDlt m).csr = s.csr := rfl
@[simp] theorem State.setDlt_ib (s : State) (m : Memory 32) : (s.setDlt m).ib = s.ib := rfl
@[simp] theorem State.setDlt_ob (s : State) (m : Memory 32) : (s.setDlt m).ob = s.ob := rfl
@[simp] theorem State.setDlt_ser (s : State) (m : Memory 32) : (s.setDlt m).ser = s.ser := rfl
@[simp] theorem State.setDlt_dlt (s : State) (m : Memory 32) : (s.setDlt m).dlt = m := rfl
@[simp] theorem State.setDlt_reg (s : State) (m : Memory 32) : (s.setDlt m).reg = s.reg := rfl
@[simp] theorem State.setDlt_params (s : State) (m : Memory 32) : (s.setDlt m).params = s.params := rfl
@[simp] theorem State.setDlt_epoch (s : State) (m : Memory 32) : (s.setDlt m).epoch = s.epoch := rfl
@[simp] theorem State.setDlt_draws (s : State) (m : Memory 32) : (s.setDlt m).draws = s.draws := rfl
@[simp] theorem State.setDlt_script (s : State) (m : Memory 32) : (s.setDlt m).script = s.script := rfl
@[simp] theorem State.setDlt_returned (s : State) (m : Memory 32) : (s.setDlt m).returned = s.returned := rfl

/-! `State.setReg` -/

@[simp] theorem State.setReg_csr (s : State) (m : Memory 16) : (s.setReg m).csr = s.csr := rfl
@[simp] theorem State.setReg_ib (s : State) (m : Memory 16) : (s.setReg m).ib = s.ib := rfl
@[simp] theorem State.setReg_ob (s : State) (m : Memory 16) : (s.setReg m).ob = s.ob := rfl
@[simp] theorem State.setReg_ser (s : State) (m : Memory 16) : (s.setReg m).ser = s.ser := rfl
@[simp] theorem State.setReg_dlt (s : State) (m : Memory 16) : (s.setReg m).dlt = s.dlt := rfl
@[simp] theorem State.setReg_reg (s : State) (m : Memory 16) : (s.setReg m).reg = m := rfl
@[simp] theorem State.setReg_params (s : State) (m : Memory 16) : (s.setReg m).params = s.params := rfl
@[simp] theorem State.setReg_epoch (s : State) (m : Memory 16) : (s.setReg m).epoch = s.epoch := rfl
@[simp] theorem State.setReg_draws (s : State) (m : Memory 16) : (s.setReg m).draws = s.draws := rfl
@[simp] theorem State.setReg_script (s : State) (m : Memory 16) : (s.setReg m).script = s.script := rfl
@[simp] theorem State.setReg_returned (s : State) (m : Memory 16) : (s.setReg m).returned = s.returned := rfl

/-! `State.setScript` -/

@[simp] theorem State.setScript_csr (s : State) (es : Script) : (s.setScript es).csr = s.csr := rfl
@[simp] theorem State.setScript_ib (s : State) (es : Script) : (s.setScript es).ib = s.ib := rfl
@[simp] theorem State.setScript_ob (s : State) (es : Script) : (s.setScript es).ob = s.ob := rfl
@[simp] theorem State.setScript_ser (s : State) (es : Script) : (s.setScript es).ser = s.ser := rfl
@[simp] theorem State.setScript_dlt (s : State) (es : Script) : (s.setScript es).dlt = s.dlt := rfl
@[simp] theorem State.setScript_reg (s : State) (es : Script) : (s.setScript es).reg = s.reg := rfl
@[simp] theorem State.setScript_params (s : State) (es : Script) : (s.setScript es).params = s.params := rfl
@[simp] theorem State.setScript_epoch (s : State) (es : Script) : (s.setScript es).epoch = s.epoch := rfl
@[simp] theorem State.setScript_draws (s : State) (es : Script) : (s.setScript es).draws = s.draws := rfl
@[simp] theorem State.setScript_script (s : State) (es : Script) : (s.setScript es).script = es := rfl
@[simp] theorem State.setScript_returned (s : State) (es : Script) : (s.setScript es).returned = s.returned := rfl

/-! `State.pushReturned` -/

@[simp] theorem State.pushReturned_csr (s : State) (v : Dword) : (s.pushReturned v).csr = s.csr := rfl
@[simp] theorem State.pushReturned_ib (s : State) (v : Dword) : (s.pushReturned v).ib = s.ib := rfl
@[simp] theorem State.pushReturned_ob (s : State) (v : Dword) : (s.pushReturned v).ob = s.ob := rfl
@[simp] theorem State.pushReturned_ser (s : State) (v : Dword) : (s.pushReturned v).ser = s.ser := rfl
@[simp] theorem State.pushReturned_dlt (s : State) (v : Dword) : (s.pushReturned v).dlt = s.dlt := rfl
@[simp] theorem State.pushReturned_reg (s : State) (v : Dword) : (s.pushReturned v).reg = s.reg := rfl
@[simp] theorem State.pushReturned_params (s : State) (v : Dword) : (s.pushReturned v).params = s.params := rfl
@[simp] theorem State.pushReturned_epoch (s : State) (v : Dword) : (s.pushReturned v).epoch = s.epoch := rfl
@[simp] theorem State.pushReturned_draws (s : State) (v : Dword) : (s.pushReturned v).draws = s.draws := rfl
@[simp] theorem State.pushReturned_script (s : State) (v : Dword) : (s.pushReturned v).script = s.script := rfl
@[simp] theorem State.pushReturned_returned (s : State) (v : Dword) : (s.pushReturned v).returned = s.returned ++ [v] := rfl

/-! `State.nextDraw` -/

@[simp] theorem State.nextDraw_csr (s : State) : s.nextDraw.csr = s.csr := rfl
@[simp] theorem State.nextDraw_ib (s : State) : s.nextDraw.ib = s.ib := rfl
@[simp] theorem State.nextDraw_ob (s : State) : s.nextDraw.ob = s.ob := rfl
@[simp] theorem State.nextDraw_ser (s : State) : s.nextDraw.ser = s.ser := rfl
@[simp] theorem State.nextDraw_dlt (s : State) : s.nextDraw.dlt = s.dlt := rfl
@[simp] theorem State.nextDraw_reg (s : State) : s.nextDraw.reg = s.reg := rfl
@[simp] theorem State.nextDraw_params (s : State) : s.nextDraw.params = s.params := rfl
@[simp] theorem State.nextDraw_epoch (s : State) : s.nextDraw.epoch = s.epoch := rfl
@[simp] theorem State.nextDraw_draws (s : State) : s.nextDraw.draws = s.draws + 1 := rfl
@[simp] theorem State.nextDraw_script (s : State) : s.nextDraw.script = s.script := rfl
@[simp] theorem State.nextDraw_returned (s : State) : s.nextDraw.returned = s.returned := rfl

/-! `externalReset` -/

@[simp] theorem externalReset_csr (s : State) : (externalReset s).csr = Csrs.reset := rfl
@[simp] theorem externalReset_ib (s : State) : (externalReset s).ib = [] := rfl
@[simp] theorem externalReset_ob (s : State) : (externalReset s).ob = [] := rfl
@[simp] theorem externalReset_ser (s : State) : (externalReset s).ser = [] := rfl
@[simp] theorem externalReset_dlt (s : State) : (externalReset s).dlt = [] := rfl
@[simp] theorem externalReset_reg (s : State) : (externalReset s).reg = [] := rfl
@[simp] theorem externalReset_params (s : State) : (externalReset s).params = s.params := rfl
@[simp] theorem externalReset_epoch (s : State) : (externalReset s).epoch = s.draws := rfl
@[simp] theorem externalReset_draws (s : State) : (externalReset s).draws = s.draws + 1 := rfl
@[simp] theorem externalReset_script (s : State) : (externalReset s).script = s.script := rfl
@[simp] theorem externalReset_returned (s : State) : (externalReset s).returned = s.returned := rfl

/-! `refuseAccess` -/

@[simp] theorem refuseAccess_csr (s : State) : (refuseAccess s).csr = { s.csr with sticky := s.csr.sticky ||| stickyAccess } := rfl
@[simp] theorem refuseAccess_ib (s : State) : (refuseAccess s).ib = s.ib := rfl
@[simp] theorem refuseAccess_ob (s : State) : (refuseAccess s).ob = s.ob := rfl
@[simp] theorem refuseAccess_ser (s : State) : (refuseAccess s).ser = s.ser := rfl
@[simp] theorem refuseAccess_dlt (s : State) : (refuseAccess s).dlt = s.dlt := rfl
@[simp] theorem refuseAccess_reg (s : State) : (refuseAccess s).reg = s.reg := rfl
@[simp] theorem refuseAccess_params (s : State) : (refuseAccess s).params = s.params := rfl
@[simp] theorem refuseAccess_epoch (s : State) : (refuseAccess s).epoch = s.epoch := rfl
@[simp] theorem refuseAccess_draws (s : State) : (refuseAccess s).draws = s.draws := rfl
@[simp] theorem refuseAccess_script (s : State) : (refuseAccess s).script = s.script := rfl
@[simp] theorem refuseAccess_returned (s : State) : (refuseAccess s).returned = s.returned := rfl

/-! An element read sees only its buffer and the epoch. -/

@[simp] theorem State.readIb_setCsr (s : State) (c : Csrs) (i : Nat) : (s.setCsr c).readIb i = s.readIb i := rfl
@[simp] theorem State.readIb_setOb (s : State) (m : Memory 8) (i : Nat) : (s.setOb m).readIb i = s.readIb i := rfl
@[simp] theorem State.readIb_setSer (s : State) (m : Memory 64) (i : Nat) : (s.setSer m).readIb i = s.readIb i := rfl
@[simp] theorem State.readIb_setDlt (s : State) (m : Memory 32) (i : Nat) : (s.setDlt m).readIb i = s.readIb i := rfl
@[simp] theorem State.readIb_setReg (s : State) (m : Memory 16) (i : Nat) : (s.setReg m).readIb i = s.readIb i := rfl
@[simp] theorem State.readIb_setScript (s : State) (es : Script) (i : Nat) : (s.setScript es).readIb i = s.readIb i := rfl
@[simp] theorem State.readIb_pushReturned (s : State) (v : Dword) (i : Nat) : (s.pushReturned v).readIb i = s.readIb i := rfl
@[simp] theorem State.readIb_nextDraw (s : State) (i : Nat) : s.nextDraw.readIb i = s.readIb i := rfl
@[simp] theorem State.readIb_refuseAccess (s : State) (i : Nat) : (refuseAccess s).readIb i = s.readIb i := rfl
@[simp] theorem State.readOb_setCsr (s : State) (c : Csrs) (i : Nat) : (s.setCsr c).readOb i = s.readOb i := rfl
@[simp] theorem State.readOb_setIb (s : State) (m : Memory 8) (i : Nat) : (s.setIb m).readOb i = s.readOb i := rfl
@[simp] theorem State.readOb_setSer (s : State) (m : Memory 64) (i : Nat) : (s.setSer m).readOb i = s.readOb i := rfl
@[simp] theorem State.readOb_setDlt (s : State) (m : Memory 32) (i : Nat) : (s.setDlt m).readOb i = s.readOb i := rfl
@[simp] theorem State.readOb_setReg (s : State) (m : Memory 16) (i : Nat) : (s.setReg m).readOb i = s.readOb i := rfl
@[simp] theorem State.readOb_setScript (s : State) (es : Script) (i : Nat) : (s.setScript es).readOb i = s.readOb i := rfl
@[simp] theorem State.readOb_pushReturned (s : State) (v : Dword) (i : Nat) : (s.pushReturned v).readOb i = s.readOb i := rfl
@[simp] theorem State.readOb_nextDraw (s : State) (i : Nat) : s.nextDraw.readOb i = s.readOb i := rfl
@[simp] theorem State.readOb_refuseAccess (s : State) (i : Nat) : (refuseAccess s).readOb i = s.readOb i := rfl
@[simp] theorem State.readSer_setCsr (s : State) (c : Csrs) (i : Nat) : (s.setCsr c).readSer i = s.readSer i := rfl
@[simp] theorem State.readSer_setIb (s : State) (m : Memory 8) (i : Nat) : (s.setIb m).readSer i = s.readSer i := rfl
@[simp] theorem State.readSer_setOb (s : State) (m : Memory 8) (i : Nat) : (s.setOb m).readSer i = s.readSer i := rfl
@[simp] theorem State.readSer_setDlt (s : State) (m : Memory 32) (i : Nat) : (s.setDlt m).readSer i = s.readSer i := rfl
@[simp] theorem State.readSer_setReg (s : State) (m : Memory 16) (i : Nat) : (s.setReg m).readSer i = s.readSer i := rfl
@[simp] theorem State.readSer_setScript (s : State) (es : Script) (i : Nat) : (s.setScript es).readSer i = s.readSer i := rfl
@[simp] theorem State.readSer_pushReturned (s : State) (v : Dword) (i : Nat) : (s.pushReturned v).readSer i = s.readSer i := rfl
@[simp] theorem State.readSer_nextDraw (s : State) (i : Nat) : s.nextDraw.readSer i = s.readSer i := rfl
@[simp] theorem State.readSer_refuseAccess (s : State) (i : Nat) : (refuseAccess s).readSer i = s.readSer i := rfl
@[simp] theorem State.readDlt_setCsr (s : State) (c : Csrs) (i : Nat) : (s.setCsr c).readDlt i = s.readDlt i := rfl
@[simp] theorem State.readDlt_setIb (s : State) (m : Memory 8) (i : Nat) : (s.setIb m).readDlt i = s.readDlt i := rfl
@[simp] theorem State.readDlt_setOb (s : State) (m : Memory 8) (i : Nat) : (s.setOb m).readDlt i = s.readDlt i := rfl
@[simp] theorem State.readDlt_setSer (s : State) (m : Memory 64) (i : Nat) : (s.setSer m).readDlt i = s.readDlt i := rfl
@[simp] theorem State.readDlt_setReg (s : State) (m : Memory 16) (i : Nat) : (s.setReg m).readDlt i = s.readDlt i := rfl
@[simp] theorem State.readDlt_setScript (s : State) (es : Script) (i : Nat) : (s.setScript es).readDlt i = s.readDlt i := rfl
@[simp] theorem State.readDlt_pushReturned (s : State) (v : Dword) (i : Nat) : (s.pushReturned v).readDlt i = s.readDlt i := rfl
@[simp] theorem State.readDlt_nextDraw (s : State) (i : Nat) : s.nextDraw.readDlt i = s.readDlt i := rfl
@[simp] theorem State.readDlt_refuseAccess (s : State) (i : Nat) : (refuseAccess s).readDlt i = s.readDlt i := rfl
@[simp] theorem State.readReg_setCsr (s : State) (c : Csrs) (i : Nat) : (s.setCsr c).readReg i = s.readReg i := rfl
@[simp] theorem State.readReg_setIb (s : State) (m : Memory 8) (i : Nat) : (s.setIb m).readReg i = s.readReg i := rfl
@[simp] theorem State.readReg_setOb (s : State) (m : Memory 8) (i : Nat) : (s.setOb m).readReg i = s.readReg i := rfl
@[simp] theorem State.readReg_setSer (s : State) (m : Memory 64) (i : Nat) : (s.setSer m).readReg i = s.readReg i := rfl
@[simp] theorem State.readReg_setDlt (s : State) (m : Memory 32) (i : Nat) : (s.setDlt m).readReg i = s.readReg i := rfl
@[simp] theorem State.readReg_setScript (s : State) (es : Script) (i : Nat) : (s.setScript es).readReg i = s.readReg i := rfl
@[simp] theorem State.readReg_pushReturned (s : State) (v : Dword) (i : Nat) : (s.pushReturned v).readReg i = s.readReg i := rfl
@[simp] theorem State.readReg_nextDraw (s : State) (i : Nat) : s.nextDraw.readReg i = s.readReg i := rfl
@[simp] theorem State.readReg_refuseAccess (s : State) (i : Nat) : (refuseAccess s).readReg i = s.readReg i := rfl

end Sys2Proof.Machine
end

