-- ==== Sys2Proof/Laws/Memory.lean ====
section
/-! SUPPORT. The laws of the buffers: read after write, what consecutive writes leave in each element, and that every
write keeps the canonical form and the index range. -/

namespace Sys2Proof.Machine

variable {w : Nat}

@[simp] theorem Memory.stored_write_same (m : Memory w) (i : Nat) (v : BitVec w) :
    (m.write i v).stored i = some v := by
  induction m with
  | nil => simp [Memory.write, Memory.stored]
  | cons e rest ih =>
    obtain ⟨j, u⟩ := e
    simp only [Memory.write]
    split
    · rename_i h
      simp only [Memory.stored, if_neg (Nat.ne_of_lt h), ih]
    · split <;> simp [Memory.stored]

theorem Memory.stored_write_ne (m : Memory w) {i k : Nat} (v : BitVec w) (h : k ≠ i) :
    (m.write i v).stored k = m.stored k := by
  induction m with
  | nil => simp [Memory.write, Memory.stored, Ne.symm h]
  | cons e rest ih =>
    obtain ⟨j, u⟩ := e
    simp only [Memory.write]
    split
    · simp only [Memory.stored, ih]
    · split
      · rename_i hj
        subst hj
        simp [Memory.stored, Ne.symm h]
      · simp [Memory.stored, Ne.symm h]

@[simp] theorem Memory.read_write_same (m : Memory w) (free : Nat → BitVec w) (i : Nat) (v : BitVec w) :
    (m.write i v).read free i = v := by
  simp [Memory.read]

theorem Memory.read_write_ne (m : Memory w) (free : Nat → BitVec w) {i k : Nat} (v : BitVec w) (h : k ≠ i) :
    (m.write i v).read free k = m.read free k := by
  simp [Memory.read, Memory.stored_write_ne m v h]

/-- What consecutive writes leave in each element: the written values in their range, the old ones elsewhere. -/
theorem Memory.read_writeFrom (vs : List (BitVec w)) (m : Memory w) (free : Nat → BitVec w) (i k : Nat) :
    (m.writeFrom i vs).read free k = if i ≤ k ∧ k < i + vs.length then vs.getD (k - i) 0 else m.read free k := by
  induction vs generalizing m i with
  | nil => simp [Memory.writeFrom]
  | cons v vs ih =>
    rw [Memory.writeFrom, ih]
    by_cases hk : k = i
    · subst hk
      simp
    · rw [Memory.read_write_ne m free v hk]
      by_cases hlt : i < k
      · have hsub : k - i = (k - (i + 1)) + 1 := by omega
        simp only [List.length_cons, hsub, List.getD_cons_succ]
        by_cases hr : k < i + 1 + vs.length
        · rw [if_pos ⟨hlt, hr⟩, if_pos ⟨by omega, by omega⟩]
        · rw [if_neg (fun h => hr h.2), if_neg (fun h => hr (by omega))]
      · rw [if_neg (fun h => hlt h.1), if_neg (fun h => hk (by omega))]

theorem Memory.read_writeFrom_zero (vs : List (BitVec w)) (m : Memory w) (free : Nat → BitVec w) (k : Nat) :
    (m.writeFrom 0 vs).read free k = if k < vs.length then vs.getD k 0 else m.read free k := by
  simp [Memory.read_writeFrom]

/-! ### The canonical form -/

theorem Memory.wf_cons (e : Nat × BitVec w) (m : Memory w) :
    Memory.wf (e :: m) = true ↔ (∀ f, m.head? = some f → e.1 < f.1) ∧ Memory.wf m = true := by
  cases m with
  | nil => simp [Memory.wf]
  | cons f rest => simp [Memory.wf]

theorem Memory.head?_write (m : Memory w) (i : Nat) (v : BitVec w) :
    ∃ f, (m.write i v).head? = some f ∧ (f.1 = i ∨ ∃ g, m.head? = some g ∧ f.1 = g.1) := by
  cases m with
  | nil => exact ⟨(i, v), rfl, .inl rfl⟩
  | cons e rest =>
    obtain ⟨j, u⟩ := e
    simp only [Memory.write]
    split
    · exact ⟨(j, u), rfl, .inr ⟨(j, u), rfl, rfl⟩⟩
    · split <;> exact ⟨(i, v), rfl, .inl rfl⟩

/-- A write keeps the canonical form. -/
theorem Memory.wf_write (m : Memory w) (i : Nat) (v : BitVec w) (h : Memory.wf m = true) :
    Memory.wf (m.write i v) = true := by
  induction m with
  | nil => rfl
  | cons e rest ih =>
    obtain ⟨j, u⟩ := e
    obtain ⟨hhead, hrest⟩ := (Memory.wf_cons _ _).1 h
    simp only [Memory.write]
    split
    · rename_i hji
      refine (Memory.wf_cons _ _).2 ⟨fun f hf => ?_, ih hrest⟩
      obtain ⟨f', hf', hcase⟩ := Memory.head?_write rest i v
      obtain rfl : f' = f := by rw [hf'] at hf; exact Option.some.inj hf
      rcases hcase with heq | ⟨g, hg, heq⟩
      · rw [heq]; exact hji
      · rw [heq]; exact hhead g hg
    · split
      · rename_i hji
        subst hji
        exact (Memory.wf_cons _ _).2 ⟨hhead, hrest⟩
      · refine (Memory.wf_cons _ _).2 ⟨fun f hf => ?_, h⟩
        obtain rfl : (j, u) = f := Option.some.inj hf
        show i < j
        omega

theorem Memory.wf_writeFrom (vs : List (BitVec w)) (m : Memory w) (i : Nat) (h : Memory.wf m = true) :
    Memory.wf (m.writeFrom i vs) = true := by
  induction vs generalizing m i with
  | nil => exact h
  | cons v vs ih => exact ih _ _ (Memory.wf_write m i v h)

/-! ### The index range -/

theorem Memory.within_write (size : Nat) (m : Memory w) (i : Nat) (v : BitVec w) (hi : i < size)
    (h : Memory.within size m = true) : Memory.within size (m.write i v) = true := by
  induction m with
  | nil => simpa [Memory.write, Memory.within] using hi
  | cons e rest ih =>
    obtain ⟨j, u⟩ := e
    simp only [Memory.within, List.all_cons, Bool.and_eq_true, decide_eq_true_eq] at h ih ⊢
    simp only [Memory.write]
    split
    · simpa using ⟨h.1, by simpa using ih h.2⟩
    · split
      · simpa using ⟨hi, by simpa using h.2⟩
      · simpa using ⟨hi, h.1, by simpa using h.2⟩

theorem Memory.within_writeFrom (size : Nat) (vs : List (BitVec w)) (m : Memory w) (i : Nat)
    (hi : i + vs.length ≤ size) (h : Memory.within size m = true) :
    Memory.within size (m.writeFrom i vs) = true := by
  induction vs generalizing m i with
  | nil => exact h
  | cons v vs ih =>
    simp only [List.length_cons] at hi
    exact ih _ _ (by omega) (Memory.within_write size m i v (by omega) h)

/-! ### Elements of a state -/

theorem State.readOb_setOb_writeFrom (s : State) (vs : List Byte) (k : Nat) :
    (s.setOb (s.ob.writeFrom 0 vs)).readOb k = if k < vs.length then vs.getD k 0 else s.readOb k :=
  Memory.read_writeFrom_zero vs s.ob _ k

theorem State.readSer_setSer_writeFrom (s : State) (vs : List Dword) (k : Nat) :
    (s.setSer (s.ser.writeFrom 0 vs)).readSer k = if k < vs.length then vs.getD k 0 else s.readSer k :=
  Memory.read_writeFrom_zero vs s.ser _ k

theorem State.readDlt_setDlt_writeFrom (s : State) (vs : List Word) (k : Nat) :
    (s.setDlt (s.dlt.writeFrom 0 vs)).readDlt k = if k < vs.length then vs.getD k 0 else s.readDlt k :=
  Memory.read_writeFrom_zero vs s.dlt _ k

theorem State.readReg_setReg_writeFrom (s : State) (vs : List Half) (k : Nat) :
    (s.setReg (s.reg.writeFrom 0 vs)).readReg k = if k < vs.length then vs.getD k 0 else s.readReg k :=
  Memory.read_writeFrom_zero vs s.reg _ k

end Sys2Proof.Machine
end

