-- ==== Sys2Proof/Laws/Ops.lean ====
section
/-! SUPPORT. One lemma per shared operation: the whole of what it can do. The lengths of the ranges and encodings the
meanings use stand beside them. -/

namespace Sys2Proof.Machine

/-! ### How a command ends -/

theorem completeCommand_next {i : Instr} {k : Kind} {s t : State} (h : completeCommand i k s = .next t) :
    t = s.setCsr { s.csr with
      cmd := encode i, status := statusOfKind k, sticky := stickyAfterKind k s.csr.sticky } := by
  simpa [completeCommand] using h.symm

theorem failCommand_next {op : Byte} {e : ErrorCode} {s t : State} (h : failCommand op e s = .next t) :
    t = s.setCsr { s.csr with
      cmd := op, status := statusOfError e, sticky := stickyAfterError e s.csr.sticky } := by
  simpa [failCommand] using h.symm

@[simp] theorem statusErr_statusOfKind (k : Kind) : statusErr (statusOfKind k) = 0 := by
  cases k <;> decide

@[simp] theorem statusKind_statusOfKind (k : Kind) : statusKind (statusOfKind k) = BitVec.ofNat 2 (kindNumber k) := by
  cases k <;> decide

@[simp] theorem statusErr_statusOfError (e : ErrorCode) :
    statusErr (statusOfError e) = BitVec.ofNat 4 (errorNumber e) := by
  cases e <;> decide

@[simp] theorem statusKind_statusOfError (e : ErrorCode) : statusKind (statusOfError e) = 0 := by
  cases e <;> decide

theorem statusErr_statusOfError_ne_zero (e : ErrorCode) : statusErr (statusOfError e) ≠ 0 := by
  cases e <;> decide

/-! ### Input ranges and written sequences -/

@[simp] theorem State.length_ibBytes (s : State) (n : Nat) : (s.ibBytes n).length = n := by
  simp [State.ibBytes]

@[simp] theorem State.length_serElements (s : State) (n : Nat) : (s.serElements n).length = n := by
  simp [State.serElements]

@[simp] theorem State.length_dltElements (s : State) (n : Nat) : (s.dltElements n).length = n := by
  simp [State.dltElements]

theorem State.getD_ibBytes (s : State) {n k : Nat} (h : k < n) : (s.ibBytes n).getD k 0 = s.readIb k := by
  simp [State.ibBytes, List.getD, h]

theorem State.getD_serElements (s : State) {n k : Nat} (h : k < n) : (s.serElements n).getD k 0 = s.readSer k := by
  simp [State.serElements, List.getD, h]

theorem State.getD_dltElements (s : State) {n k : Nat} (h : k < n) : (s.dltElements n).getD k 0 = s.readDlt k := by
  simp [State.dltElements, List.getD, h]

/-- Two states that agree on `IB[0..n)` give the same bytes. -/
theorem State.ibBytes_congr {s s' : State} {n : Nat} (h : ∀ k, k < n → s.readIb k = s'.readIb k) :
    s.ibBytes n = s'.ibBytes n :=
  List.map_congr_left fun k hk => h k (List.mem_range.1 hk)

/-- Two states that agree on `SER[0..n)` give the same series. -/
theorem State.serElements_congr {s s' : State} {n : Nat} (h : ∀ k, k < n → s.readSer k = s'.readSer k) :
    s.serElements n = s'.serElements n :=
  List.map_congr_left fun k hk => h k (List.mem_range.1 hk)

/-- Two states that agree on `DLT[0..n)` give the same deltas. -/
theorem State.dltElements_congr {s s' : State} {n : Nat} (h : ∀ k, k < n → s.readDlt k = s'.readDlt k) :
    s.dltElements n = s'.dltElements n :=
  List.map_congr_left fun k hk => h k (List.mem_range.1 hk)

@[simp] theorem length_crcBytes (c : Half) : (crcBytes c).length = 2 := by
  simp [crcBytes]

@[simp] theorem length_requestFrame (slave function : Byte) (addr data : Half) :
    (requestFrame slave function addr data).length = 8 := by
  simp [requestFrame, requestBody]

theorem length_differencesFrom (series : List Dword) (p : Int) : (differencesFrom p series).length = series.length := by
  induction series generalizing p with
  | nil => rfl
  | cons x rest ih => simp [differencesFrom, ih]

@[simp] theorem length_exactDeltas (series : List Dword) : (exactDeltas series).length = series.length := by
  cases series with
  | nil => rfl
  | cons x rest => simp [exactDeltas, length_differencesFrom]

theorem length_of_deltaEncode {series : List Dword} {deltas : List Word} (h : deltaEncode series = some deltas) :
    deltas.length = series.length := by
  unfold deltaEncode at h
  split at h
  · cases h; simp
  · cases h

theorem length_sumsFrom (deltas : List Word) (p : Int) : (sumsFrom p deltas).length = deltas.length := by
  induction deltas generalizing p with
  | nil => rfl
  | cons d rest ih => simp [sumsFrom, ih]

@[simp] theorem length_deltaDecode (deltas : List Word) : (deltaDecode deltas).length = deltas.length := by
  cases deltas with
  | nil => rfl
  | cons d rest => simp [deltaDecode, exactSums, length_sumsFrom]

theorem length_varintLoop_pos (k : Nat) (v : Word) : 1 ≤ (varintLoop k v).length := by
  cases k with
  | zero => simp [varintLoop]
  | succ k => simp only [varintLoop]; split <;> simp

theorem length_varintLoop_le (k : Nat) (v : Word) : (varintLoop k v).length ≤ k + 1 := by
  induction k generalizing v with
  | zero => simp [varintLoop]
  | succ k ih =>
    simp only [varintLoop]
    split
    · simp
    · have := ih (v >>> 7)
      simp only [List.length_cons]
      omega

/-- A varint has 1 to 5 bytes (R142). -/
theorem length_varint (v : Word) : 1 ≤ (varint v).length ∧ (varint v).length ≤ 5 :=
  ⟨length_varintLoop_pos 4 v, length_varintLoop_le 4 v⟩

/-- What the decoder's loop answers: the bytes it has taken are there, and at most five. -/
theorem varintScan_taken {left k : Nat} {v : Word} {bytes : List Byte} {r : Word × Nat}
    (h : varintScan left k v bytes = some r) : k < r.2 ∧ r.2 ≤ k + left ∧ r.2 ≤ k + bytes.length := by
  induction left generalizing k v bytes with
  | zero => simp [varintScan] at h
  | succ left ih =>
    cases bytes with
    | nil => simp [varintScan] at h
    | cons x rest =>
      simp only [varintScan] at h
      split at h
      · cases h
      · split at h
        · have := ih h
          simp only [List.length_cons]
          omega
        · cases h
          simp only [List.length_cons]
          omega

/-- Where a varint decodes, its end is after the offset, at most five bytes on, and inside the bytes (R143, R147). -/
theorem varintDecode_end {bytes : List Byte} {off : Nat} {r : Word × Nat} (h : varintDecode bytes off = some r) :
    off < r.2 ∧ r.2 ≤ off + 5 ∧ r.2 ≤ bytes.length := by
  obtain ⟨q, hq, rfl⟩ := Option.map_eq_some_iff.1 h
  have := varintScan_taken hq
  simp only [List.length_drop] at this
  simp only
  omega

/-! ### The port -/

/-- What a write of a command word does: it runs the decoded command, or ends with ILLEGAL_CMD. -/
theorem runCommand_of_decode_ok {op : Byte} {i : Instr} (s : State) (h : decode op = .ok i) :
    runCommand op s = exec i s := by
  simp [runCommand, h]

theorem runCommand_of_decode_error {op : Byte} {e : DecodeError} (s : State) (h : decode op = .error e) :
    runCommand op s = failCommand op .illegalCmd s := by
  simp [runCommand, h]

/-- What a step does: nothing without a pending event, else the first event. -/
theorem step_of_script_nil {s : State} (h : s.script = []) : step s = .next s := by
  simp [step, h]

theorem step_of_script_cons {s : State} {e : HostEvent} {rest : Script} (h : s.script = e :: rest) :
    step s = applyEvent e (s.setScript rest) := by
  simp [step, h]

/-- What a host read does: the location's value, or a refusal. -/
theorem hostRead_of_location {s : State} {space index : Nat} {loc : Location}
    (h : decodeLocation s.params space index = some loc) : hostRead space index s = s.pushReturned (s.load loc) := by
  simp [hostRead, h]

theorem hostRead_refused {s : State} {space index : Nat} (h : decodeLocation s.params space index = none) :
    hostRead space index s = ((refuseAccess s).pushReturned (Config.refusedRead s.draws)).nextDraw := by
  simp [hostRead, h]

/-- What a host write does: a command, a store, or a refusal. -/
theorem hostWrite_of_location {s : State} {space index : Nat} {v : Dword} {loc : Location}
    (h : decodeLocation s.params space index = some loc) : hostWrite space index v s = writeLocation loc v s := by
  simp [hostWrite, h]

theorem hostWrite_refused {s : State} {space index : Nat} {v : Dword}
    (h : decodeLocation s.params space index = none) : hostWrite space index v s = .next (refuseAccess s) := by
  simp [hostWrite, h]

theorem writeLocation_cmd (v : Dword) (s : State) :
    writeLocation (.csr .cmd) v s = runCommand (v.setWidth 8) s := rfl

theorem writeLocation_of_ne_cmd {loc : Location} (v : Dword) (s : State) (h : loc ≠ .csr .cmd) :
    writeLocation loc v s = .next ((s.store v loc).getD (refuseAccess s)) := by
  cases loc with
  | csr name => cases name <;> first | exact absurd rfl h | rfl
  | element b i => rfl

/-- The number of a CSR names that CSR (R13). -/
@[simp] theorem csrOfNumber_csrNumber (r : CsrName) : csrOfNumber (csrNumber r) = some r := by
  cases r <;> rfl

/-- A CSR is where its number says. -/
@[simp] theorem decodeLocation_csr (p : Params) (r : CsrName) : decodeLocation p 0 (csrNumber r) = some (.csr r) := by
  simp [decodeLocation]

/-- An element is where its buffer's space number and its index say. -/
theorem decodeLocation_element {p : Params} {b : BufferName} {i : Nat} (h : i < bufferSize p b) :
    decodeLocation p (bufferSpace b) i = some (.element b i) := by
  cases b <;> simp_all [decodeLocation, bufferSpace, elementAt]

/-- A number of the CSR space names a register exactly when it is at most 16 (R13, R31). -/
theorem csrOfNumber_eq_none_iff (n : Nat) : csrOfNumber n = none ↔ 17 ≤ n := by
  constructor
  · intro h
    by_contra hn
    have hlt : n < 17 := by omega
    interval_cases n <;> cases h
  · intro h
    unfold csrOfNumber
    split <;> first
      | rfl
      | omega

/-- An index names no element of a buffer exactly when it is outside the buffer (R40). -/
theorem elementAt_eq_none_iff (p : Params) (b : BufferName) (i : Nat) :
    elementAt p b i = none ↔ bufferSize p b ≤ i := by
  unfold elementAt
  split
  · simp; omega
  · simp; omega

/-- A register's number is the one that names it. -/
theorem csrNumber_of_csrOfNumber {n : Nat} {r : CsrName} (h : csrOfNumber n = some r) : csrNumber r = n := by
  unfold csrOfNumber at h
  split at h <;> cases h <;> rfl

/-- A space number and an index name no location exactly when the index is outside the space (R45). -/
theorem decodeLocation_eq_none_iff (p : Params) (space index : Nat) :
    decodeLocation p space index = none ↔ p.spaceSize space ≤ index := by
  unfold decodeLocation
  split
  · simpa [Params.spaceSize] using csrOfNumber_eq_none_iff index
  · exact elementAt_eq_none_iff p .ib index
  · exact elementAt_eq_none_iff p .ob index
  · exact elementAt_eq_none_iff p .ser index
  · exact elementAt_eq_none_iff p .dlt index
  · exact elementAt_eq_none_iff p .reg index
  · simp [Params.spaceSize]

/-- What names a CSR is space 0 and the CSR's number. -/
theorem decodeLocation_eq_csr {p : Params} {space index : Nat} {r : CsrName}
    (h : decodeLocation p space index = some (.csr r)) : space = 0 ∧ index = csrNumber r := by
  unfold decodeLocation elementAt at h
  split at h
  · obtain ⟨r', hr', hloc⟩ := Option.map_eq_some_iff.1 h
    cases hloc
    exact ⟨rfl, (csrNumber_of_csrOfNumber hr').symm⟩
  all_goals simp at h

/-- What names an element is its buffer's space number and an index inside the buffer. -/
theorem decodeLocation_eq_element {p : Params} {space index i : Nat} {b : BufferName}
    (h : decodeLocation p space index = some (.element b i)) :
    space = bufferSpace b ∧ index = i ∧ i < bufferSize p b := by
  unfold decodeLocation elementAt at h
  split at h
  · simp at h
  all_goals first
    | (simp only [Option.ite_none_right_eq_some, Option.some.injEq, Location.element.injEq] at h
       obtain ⟨hlt, rfl, rfl⟩ := h
       exact ⟨rfl, rfl, hlt⟩)
    | cases h

end Sys2Proof.Machine
end

