-- ==== Sys2Proof/Laws/Exec.lean ====
section
/-! SUPPORT. What each command can do, said once: how it ends, and in which state. Later proofs take a command apart with
these and do not unfold its meaning. -/

namespace Sys2Proof.Machine

theorem execNop_cases (s : State) : exec .nop s = completeCommand .nop .none s := rfl

theorem execClrs_cases (s : State) :
    exec .clrs s = completeCommand .clrs .none (s.setCsr { s.csr with sticky := 0 }) := rfl

theorem execSreset_cases (s : State) : exec .sreset s = .next (s.setCsr Csrs.reset) := rfl

theorem execCrc16_cases (s : State) :
    (∃ e, e ≠ .illegalCmd ∧ exec .crc16 s = failCommand (encode .crc16) e s) ∨
    (s.lenOperand ≤ s.params.nb ∧
      exec .crc16 s =
        completeCommand .crc16 .none (s.setCsr { s.csr with crc := crc16 (s.ibBytes s.lenOperand) })) := by
  by_cases h : s.params.nb < s.lenOperand
  · exact .inl ⟨.badLength, by decide, by simp [exec, execCrc16, State.lenTooLarge, h]⟩
  · exact .inr ⟨Nat.not_lt.1 h, by simp [exec, execCrc16, State.lenTooLarge, h]⟩

theorem execCrcapp_cases (s : State) :
    (∃ e, e ≠ .illegalCmd ∧ exec .crcapp s = failCommand (encode .crcapp) e s) ∨
    (s.lenOperand + 2 ≤ s.params.nb ∧
      exec .crcapp s = completeCommand .crcapp .none
        ((s.setOb (s.ob.writeFrom 0 (s.ibBytes s.lenOperand ++ crcBytes (crc16 (s.ibBytes s.lenOperand))))).setCsr
          { s.csr with crc := crc16 (s.ibBytes s.lenOperand), rlen := BitVec.ofNat 16 (s.lenOperand + 2) })) := by
  by_cases h : s.params.nb < s.lenOperand + 2
  · exact .inl ⟨.badLength, by decide, by simp [exec, execCrcapp, h]⟩
  · exact .inr ⟨Nat.not_lt.1 h, by simp [exec, execCrcapp, h]⟩

theorem execCrcvfy_cases (s : State) :
    (∃ e, e ≠ .illegalCmd ∧ exec .crcvfy s = failCommand (encode .crcvfy) e s) ∨
    (s.lenOperand ≤ s.params.nb ∧ 2 ≤ s.lenOperand ∧ s.crcMatches s.lenOperand = true ∧
      exec .crcvfy s =
        completeCommand .crcvfy .none (s.setCsr { s.csr with crc := s.frameCrc s.lenOperand })) := by
  by_cases h : s.params.nb < s.lenOperand
  · exact .inl ⟨.badLength, by decide, by simp [exec, execCrcvfy, State.lenTooLarge, h]⟩
  by_cases h2 : s.lenOperand < 2
  · exact .inl ⟨.tooShort, by decide, by simp [exec, execCrcvfy, State.lenTooLarge, h, h2]⟩
  by_cases h3 : s.crcMatches s.lenOperand = true
  · exact .inr ⟨Nat.not_lt.1 h, Nat.not_lt.1 h2, h3, by
      simp [exec, execCrcvfy, State.lenTooLarge, h, h2, h3]⟩
  · exact .inl ⟨.crcMismatch, by decide, by simp [exec, execCrcvfy, State.lenTooLarge, h, h2, h3]⟩

theorem execBldrd_cases (s : State) : exec .bldrd s = completeCommand .bldrd .none (s.buildFrame 0x03) := rfl

theorem execBldwr_cases (s : State) : exec .bldwr s = completeCommand .bldwr .none (s.buildFrame 0x06) := rfl

/-- PARSE ends with an error, or accepts an exception, a read response, or another response. -/
theorem execParse_cases (s : State) :
    (∃ e, e ≠ .illegalCmd ∧ exec .parse s = failCommand (encode .parse) e s) ∨
    (s.lenOperand ≤ s.params.nb ∧ 5 ≤ s.lenOperand ∧ s.crcMatches s.lenOperand = true ∧
      (s.readIb 1).getLsbD 7 = true ∧
      exec .parse s =
        acceptResponse s.lenOperand .exception 0 (s.readIb 2) (excReason s.params (s.readIb 2)) s) ∨
    (s.lenOperand ≤ s.params.nb ∧ 5 ≤ s.lenOperand ∧ s.crcMatches s.lenOperand = true ∧ s.readIb 1 = 0x03 ∧
      (s.readIb 2).toNat = s.lenOperand - 5 ∧ (s.readIb 2).toNat % 2 = 0 ∧
      exec .parse s =
        acceptResponse s.lenOperand .registers ((s.readIb 2).toNat / 2) 0 0
          (s.setReg (s.reg.writeFrom 0 ((List.range ((s.readIb 2).toNat / 2)).map s.responseRegister)))) ∨
    (s.lenOperand ≤ s.params.nb ∧ 4 ≤ s.lenOperand ∧ s.crcMatches s.lenOperand = true ∧
      (s.readIb 1).getLsbD 7 = false ∧ s.readIb 1 ≠ 0x03 ∧
      exec .parse s = acceptResponse s.lenOperand .other 0 0 0 s) := by
  by_cases h : s.params.nb < s.lenOperand
  · exact .inl ⟨.badLength, by decide, by simp [exec, execParse, State.lenTooLarge, h]⟩
  by_cases h4 : s.lenOperand < 4
  · exact .inl ⟨.tooShort, by decide, by simp [exec, execParse, State.lenTooLarge, h, h4]⟩
  cases hm : s.crcMatches s.lenOperand with
  | false => exact .inl ⟨.crcMismatch, by decide, by simp [exec, execParse, State.lenTooLarge, h, h4, hm]⟩
  | true =>
    cases h7 : (s.readIb 1).getLsbD 7 with
    | true =>
      by_cases h5 : s.lenOperand < 5
      · exact .inl ⟨.tooShort, by decide, by
          simp [exec, execParse, parseException, State.lenTooLarge, h, h4, hm, h7, h5]⟩
      · exact .inr (.inl ⟨Nat.not_lt.1 h, Nat.not_lt.1 h5, rfl, rfl, by
          simp [exec, execParse, parseException, State.lenTooLarge, h, h4, hm, h7, h5]⟩)
    | false =>
      by_cases h3 : s.readIb 1 = 0x03
      · by_cases h5 : s.lenOperand < 5
        · exact .inl ⟨.tooShort, by decide, by
            simp [exec, execParse, parseRegisters, State.lenTooLarge, h, h4, hm, h3, h5]⟩
        by_cases hc : (s.readIb 2).toNat = s.lenOperand - 5
        · by_cases ho : (s.readIb 2).toNat % 2 = 1
          · have ho' : (s.lenOperand - 5) % 2 = 1 := hc ▸ ho
            exact .inl ⟨.badByteCount, by decide, by
              simp [exec, execParse, parseRegisters, State.lenTooLarge, h, h4, hm, h3, h5, hc, ho']⟩
          · have ho' : ¬ (s.lenOperand - 5) % 2 = 1 := hc ▸ ho
            exact .inr (.inr (.inl ⟨Nat.not_lt.1 h, Nat.not_lt.1 h5, rfl, h3, hc, by omega, by
              simp [exec, execParse, parseRegisters, State.lenTooLarge, h, h4, hm, h3, h5, hc, ho']⟩))
        · exact .inl ⟨.badByteCount, by decide, by
            simp [exec, execParse, parseRegisters, State.lenTooLarge, h, h4, hm, h3, h5, hc]⟩
      · exact .inr (.inr (.inr ⟨Nat.not_lt.1 h, Nat.not_lt.1 h4, rfl, rfl, h3, by
          rw [exec, execParse, if_neg (by simp [State.lenTooLarge, h]), if_neg h4, if_neg (by simp [hm]),
            if_neg (by rw [h7]; exact Bool.false_ne_true), if_neg h3, parseOther]⟩))

theorem execDenc_cases (s : State) :
    (∃ e, e ≠ .illegalCmd ∧ exec .denc s = failCommand (encode .denc) e s) ∨
    (∃ deltas, s.cntOperand ≤ s.params.nw ∧ deltaEncode (s.serElements s.cntOperand) = some deltas ∧
      exec .denc s = completeCommand .denc .none
        ((s.setDlt (s.dlt.writeFrom 0 deltas)).setCsr { s.csr with rcnt := BitVec.ofNat 16 s.cntOperand })) := by
  by_cases h : s.params.nw < s.cntOperand
  · exact .inl ⟨.badLength, by decide, by simp [exec, execDenc, State.cntTooLarge, h]⟩
  cases hd : deltaEncode (s.serElements s.cntOperand) with
  | none => exact .inl ⟨.range, by decide, by simp [exec, execDenc, State.cntTooLarge, h, hd]⟩
  | some deltas =>
    exact .inr ⟨deltas, Nat.not_lt.1 h, rfl, by simp [exec, execDenc, State.cntTooLarge, h, hd]⟩

theorem execDdec_cases (s : State) :
    (∃ e, e ≠ .illegalCmd ∧ exec .ddec s = failCommand (encode .ddec) e s) ∨
    (s.cntOperand ≤ s.params.nw ∧
      exec .ddec s = completeCommand .ddec .none
        ((s.setSer (s.ser.writeFrom 0 (deltaDecode (s.dltElements s.cntOperand)))).setCsr
          { s.csr with rcnt := BitVec.ofNat 16 s.cntOperand })) := by
  by_cases h : s.params.nw < s.cntOperand
  · exact .inl ⟨.badLength, by decide, by simp [exec, execDdec, State.cntTooLarge, h]⟩
  · exact .inr ⟨Nat.not_lt.1 h, by simp [exec, execDdec, State.cntTooLarge, h]⟩

theorem execZzenc_cases (s : State) :
    exec .zzenc s = completeCommand .zzenc .none (s.setCsr { s.csr with val := zigzag s.csr.val }) := rfl

theorem execZzdec_cases (s : State) :
    exec .zzdec s = completeCommand .zzdec .none (s.setCsr { s.csr with val := unzigzag s.csr.val }) := rfl

theorem execVenc_cases (s : State) :
    exec .venc s = completeCommand .venc .none
      ((s.setOb (s.ob.writeFrom 0 (varint s.csr.val))).setCsr
        { s.csr with rlen := BitVec.ofNat 16 (varint s.csr.val).length }) := rfl

theorem execVdec_cases (s : State) :
    (∃ e, e ≠ .illegalCmd ∧ exec .vdec s = failCommand (encode .vdec) e s) ∨
    (∃ v newOff, s.lenOperand ≤ s.params.nb ∧
      varintDecode (s.ibBytes s.lenOperand) s.offOperand = some (v, newOff) ∧
      exec .vdec s = completeCommand .vdec .none (s.setCsr { s.csr with
        val := v, rlen := BitVec.ofNat 16 (newOff - s.offOperand), off := BitVec.ofNat 16 newOff })) := by
  by_cases h : s.params.nb < s.lenOperand
  · exact .inl ⟨.badLength, by decide, by simp [exec, execVdec, State.lenTooLarge, h]⟩
  cases hd : varintDecode (s.ibBytes s.lenOperand) s.offOperand with
  | none => exact .inl ⟨.malformed, by decide, by simp [exec, execVdec, State.lenTooLarge, h, hd]⟩
  | some r =>
    exact .inr ⟨r.1, r.2, Nat.not_lt.1 h, rfl, by
      simp [exec, execVdec, State.lenTooLarge, h, hd]⟩

theorem execPack_cases (s : State) :
    (∃ e, e ≠ .illegalCmd ∧ exec .pack s = failCommand (encode .pack) e s) ∨
    (s.cntOperand ≤ s.params.nw ∧ (encodeStream (s.dltElements s.cntOperand)).length ≤ s.params.nb ∧
      exec .pack s = completeCommand .pack .none
        ((s.setOb (s.ob.writeFrom 0 (encodeStream (s.dltElements s.cntOperand)))).setCsr
          { s.csr with
            rlen := BitVec.ofNat 16 (encodeStream (s.dltElements s.cntOperand)).length,
            rcnt := BitVec.ofNat 16 s.cntOperand })) := by
  by_cases h : s.params.nw < s.cntOperand
  · exact .inl ⟨.badLength, by decide, by simp [exec, execPack, State.cntTooLarge, h]⟩
  by_cases h2 : s.params.nb < (encodeStream (s.dltElements s.cntOperand)).length
  · exact .inl ⟨.badLength, by decide, by simp [exec, execPack, State.cntTooLarge, h, h2]⟩
  · exact .inr ⟨Nat.not_lt.1 h, Nat.not_lt.1 h2, by
      simp [exec, execPack, State.cntTooLarge, h, h2]⟩

theorem execUnpack_cases (s : State) :
    (∃ e, e ≠ .illegalCmd ∧ exec .unpack s = failCommand (encode .unpack) e s) ∨
    (∃ deltas, s.lenOperand ≤ s.params.nb ∧ decodeStream (s.ibBytes s.lenOperand) = some deltas ∧
      deltas.length ≤ s.params.nw ∧
      exec .unpack s = completeCommand .unpack .none
        ((s.setDlt (s.dlt.writeFrom 0 deltas)).setCsr
          { s.csr with
            rcnt := BitVec.ofNat 16 deltas.length, rlen := BitVec.ofNat 16 s.lenOperand })) := by
  by_cases h : s.params.nb < s.lenOperand
  · exact .inl ⟨.badLength, by decide, by simp [exec, execUnpack, State.lenTooLarge, h]⟩
  cases hd : decodeStream (s.ibBytes s.lenOperand) with
  | none => exact .inl ⟨.malformed, by decide, by simp [exec, execUnpack, State.lenTooLarge, h, hd]⟩
  | some deltas =>
    by_cases h2 : s.params.nw < deltas.length
    · exact .inl ⟨.badLength, by decide, by simp [exec, execUnpack, State.lenTooLarge, h, hd, h2]⟩
    · exact .inr ⟨deltas, Nat.not_lt.1 h, rfl, Nat.not_lt.1 h2, by
        simp [exec, execUnpack, State.lenTooLarge, h, hd, h2]⟩

/-- How any command but SRESET ends: with an error, or successfully from a state `s'` with the command's collected
writes. Those never touch `IB`, the parameters, the draws, or the host's events and values; the kind is not NONE exactly
for a PARSE; and only CLRS touches `STICKY`. -/
theorem exec_ends (i : Instr) (s : State) (hi : i ≠ .sreset) :
    (∃ e, e ≠ .illegalCmd ∧ exec i s = failCommand (encode i) e s) ∨
    (∃ k s', exec i s = completeCommand i k s' ∧ (k ≠ .none ↔ i = .parse) ∧
      s'.csr.sticky = (if i = .clrs then 0 else s.csr.sticky) ∧ s'.ib = s.ib ∧ s'.params = s.params ∧
      s'.epoch = s.epoch ∧ s'.draws = s.draws ∧ s'.script = s.script ∧ s'.returned = s.returned) := by
  cases i with
  | sreset => exact absurd rfl hi
  | nop => exact .inr ⟨_, _, execNop_cases s, by decide, rfl, rfl, rfl, rfl, rfl, rfl, rfl⟩
  | clrs => exact .inr ⟨_, _, execClrs_cases s, by decide, rfl, rfl, rfl, rfl, rfl, rfl, rfl⟩
  | bldrd => exact .inr ⟨_, _, execBldrd_cases s, by decide, rfl, rfl, rfl, rfl, rfl, rfl, rfl⟩
  | bldwr => exact .inr ⟨_, _, execBldwr_cases s, by decide, rfl, rfl, rfl, rfl, rfl, rfl, rfl⟩
  | zzenc => exact .inr ⟨_, _, execZzenc_cases s, by decide, rfl, rfl, rfl, rfl, rfl, rfl, rfl⟩
  | zzdec => exact .inr ⟨_, _, execZzdec_cases s, by decide, rfl, rfl, rfl, rfl, rfl, rfl, rfl⟩
  | venc => exact .inr ⟨_, _, execVenc_cases s, by decide, rfl, rfl, rfl, rfl, rfl, rfl, rfl⟩
  | crc16 =>
    rcases execCrc16_cases s with h | ⟨_, h⟩
    · exact .inl h
    · exact .inr ⟨_, _, h, by decide, rfl, rfl, rfl, rfl, rfl, rfl, rfl⟩
  | crcapp =>
    rcases execCrcapp_cases s with h | ⟨_, h⟩
    · exact .inl h
    · exact .inr ⟨_, _, h, by decide, rfl, rfl, rfl, rfl, rfl, rfl, rfl⟩
  | crcvfy =>
    rcases execCrcvfy_cases s with h | ⟨_, _, _, h⟩
    · exact .inl h
    · exact .inr ⟨_, _, h, by decide, rfl, rfl, rfl, rfl, rfl, rfl, rfl⟩
  | parse =>
    rcases execParse_cases s with h | ⟨_, _, _, _, h⟩ | ⟨_, _, _, _, _, _, h⟩ | ⟨_, _, _, _, _, h⟩
    · exact .inl h
    · exact .inr ⟨_, _, h, by decide, rfl, rfl, rfl, rfl, rfl, rfl, rfl⟩
    · exact .inr ⟨_, _, h, by decide, rfl, rfl, rfl, rfl, rfl, rfl, rfl⟩
    · exact .inr ⟨_, _, h, by decide, rfl, rfl, rfl, rfl, rfl, rfl, rfl⟩
  | denc =>
    rcases execDenc_cases s with h | ⟨_, _, _, h⟩
    · exact .inl h
    · exact .inr ⟨_, _, h, by decide, rfl, rfl, rfl, rfl, rfl, rfl, rfl⟩
  | ddec =>
    rcases execDdec_cases s with h | ⟨_, h⟩
    · exact .inl h
    · exact .inr ⟨_, _, h, by decide, rfl, rfl, rfl, rfl, rfl, rfl, rfl⟩
  | vdec =>
    rcases execVdec_cases s with h | ⟨_, _, _, _, h⟩
    · exact .inl h
    · exact .inr ⟨_, _, h, by decide, rfl, rfl, rfl, rfl, rfl, rfl, rfl⟩
  | pack =>
    rcases execPack_cases s with h | ⟨_, _, h⟩
    · exact .inl h
    · exact .inr ⟨_, _, h, by decide, rfl, rfl, rfl, rfl, rfl, rfl, rfl⟩
  | unpack =>
    rcases execUnpack_cases s with h | ⟨_, _, _, _, h⟩
    · exact .inl h
    · exact .inr ⟨_, _, h, by decide, rfl, rfl, rfl, rfl, rfl, rfl, rfl⟩

end Sys2Proof.Machine
end

