-- ==== Sys2Proof/Laws/PerInstr.lean ====
section
/-! SUPPORT. The statements made per command: its opcode's two fields are its unit and its function number (R60, R61). -/

namespace Sys2Proof.Laws.EncodingFields

/-- The fields of a command's opcode are those of its row in the opcode map (R61): `UNIT` in bits 7:4, `FN` in bits
3:0. -/
def Statement (i : Instr) : Prop :=
  unitField (encode i) = unitCode i.unit ∧ fnField (encode i) = i.fn

theorem nop : Statement .nop := by unfold Statement; decide
theorem clrs : Statement .clrs := by unfold Statement; decide
theorem sreset : Statement .sreset := by unfold Statement; decide
theorem crc16 : Statement .crc16 := by unfold Statement; decide
theorem crcapp : Statement .crcapp := by unfold Statement; decide
theorem crcvfy : Statement .crcvfy := by unfold Statement; decide
theorem bldrd : Statement .bldrd := by unfold Statement; decide
theorem bldwr : Statement .bldwr := by unfold Statement; decide
theorem parse : Statement .parse := by unfold Statement; decide
theorem denc : Statement .denc := by unfold Statement; decide
theorem ddec : Statement .ddec := by unfold Statement; decide
theorem zzenc : Statement .zzenc := by unfold Statement; decide
theorem zzdec : Statement .zzdec := by unfold Statement; decide
theorem venc : Statement .venc := by unfold Statement; decide
theorem vdec : Statement .vdec := by unfold Statement; decide
theorem pack : Statement .pack := by unfold Statement; decide
theorem unpack : Statement .unpack := by unfold Statement; decide

end Sys2Proof.Laws.EncodingFields
end

