-- ==== Sys2Proof/Tests/Slice0.lean ====
section
/-! SUPPORT. Tests: the checks of WellFormed, the decoder on words written out from the opcode map (R61), one-step tests of
every command with the values of 95_test_vectors.md, and a witness for the hypotheses of every statement that has some. -/

namespace Sys2Proof.Tests

open Sys2Proof.Machine

-- The tests are many and small; elaborated one after another they need one thread and its stack, not one each.
set_option Elab.async false

/-! ### Helpers -/

/-- A buffer whose first elements have been written. -/
def holding {w : Nat} (vs : List (BitVec w)) : Memory w := Memory.writeFrom [] 0 vs

/-- The reset state with other CSRs. -/
def withCsr (c : Csrs) : State := State.reset.setCsr c

/-- The reset state with input bytes, and `LEN` their number. -/
def input (bytes : List Byte) : State :=
  (State.reset.setCsr { Csrs.reset with len := BitVec.ofNat 16 bytes.length }).setIb (holding bytes)

/-- The reset state with a value in `LEN`. -/
def withLen (n : Half) : State := withCsr { Csrs.reset with len := n }

/-- The reset state with a value in `CNT`. -/
def withCnt (n : Half) : State := withCsr { Csrs.reset with cnt := n }

/-- The reset state with a series, and `CNT` its length. -/
def series (vs : List Int) : State :=
  (withCnt (BitVec.ofNat 16 vs.length)).setSer (holding (vs.map (BitVec.ofInt 64)))

/-- The reset state with deltas, and `CNT` their number. -/
def deltas (vs : List Int) : State :=
  (withCnt (BitVec.ofNat 16 vs.length)).setDlt (holding (vs.map (BitVec.ofInt 32)))

/-- The same engine with other capacities. -/
def capacities (nb nw : Nat) (s : State) : State := { s with params := { s.params with nb := nb, nw := nw } }

/-- The reset state with host events to come. -/
def pending (es : Script) : State := State.reset.setScript es

/-- The next state that an answer gives. -/
def ended : Answer → Option State
  | .next s => some s
  | .fault f => nomatch f
  | .refused _ => none

/-- The next state that an answer gives, for an answer that gives one. -/
def endState (a : Answer) : State := (ended a).getD State.reset

/-- One property of the next state. -/
def gives (a : Answer) (p : State → Bool) : Bool := ((ended a).map p).getD false

/-- `OB[0..n)` -/
def obBytes (s : State) (n : Nat) : List Byte := (List.range n).map s.readOb

/-! ### WellFormed -/

theorem test_params_wf : Config.exampleParams.wf = true := by decide

theorem test_params_smallest_wf : Params.wf { Config.exampleParams with nb := 8, nw := 1 } = true := by decide

theorem test_nb_too_small : Params.nbWf { Config.exampleParams with nb := 7 } = false := by decide

theorem test_nb_too_large : Params.nbWf { Config.exampleParams with nb := 65536 } = false := by decide

theorem test_nw_too_small : Params.nwWf { Config.exampleParams with nw := 0 } = false := by decide

theorem test_nw_too_large : Params.nwWf { Config.exampleParams with nw := 65536 } = false := by decide

theorem test_exc_code_zero : Params.excEntriesWf { Config.exampleParams with excMap := [(0x00, 1)] } = false := by decide

theorem test_exc_code_too_large : Params.excEntriesWf { Config.exampleParams with excMap := [(0x0C, 1)] } = false := by
  decide

theorem test_exc_reason_zero : Params.excEntriesWf { Config.exampleParams with excMap := [(0x01, 0)] } = false := by
  decide

theorem test_exc_reason_too_large : Params.excEntriesWf { Config.exampleParams with excMap := [(0x01, 10)] } = false := by
  decide

theorem test_exc_not_nine : Params.excShapeWf { Config.exampleParams with excMap := [(0x02, 2)] } = false := by decide

theorem test_exc_code_twice : Params.excShapeWf { Config.exampleParams with excMap :=
    [(0x01, 1), (0x02, 2), (0x03, 3), (0x04, 4), (0x05, 5), (0x06, 6), (0x08, 7), (0x0A, 8), (0x01, 9)] } = false := by
  decide

theorem test_exc_two_is_not_two : Params.excShapeWf { Config.exampleParams with excMap :=
    [(0x01, 1), (0x02, 3), (0x03, 2), (0x04, 4), (0x05, 5), (0x06, 6), (0x08, 7), (0x0A, 8), (0x0B, 9)] } = false := by
  decide

theorem test_event_read_wf : HostEvent.wf Config.exampleParams (.read 5 126) = true := by decide

theorem test_event_read_outside : HostEvent.wf Config.exampleParams (.read 5 127) = false := by decide

theorem test_event_read_no_space : HostEvent.wf Config.exampleParams (.read 6 0) = false := by decide

theorem test_event_write_wf : HostEvent.wf Config.exampleParams (.write 0 9 0) = true := by decide

theorem test_event_write_outside : HostEvent.wf Config.exampleParams (.write 1 2048 0) = false := by decide

theorem test_event_write_read_only : HostEvent.wf Config.exampleParams (.write 0 10 0) = false := by decide

/-! ### Decoding: words of the opcode map (R61), UNIT in bits 7:4 and FN in bits 3:0 (R60) -/

theorem test_decode_nop : decode 0b00000000#8 = .ok .nop := by rfl
theorem test_decode_clrs : decode 0b00000001#8 = .ok .clrs := by rfl
theorem test_decode_sreset : decode 0b00000010#8 = .ok .sreset := by rfl
theorem test_decode_crc16 : decode 0b00010000#8 = .ok .crc16 := by rfl
theorem test_decode_crcapp : decode 0b00010001#8 = .ok .crcapp := by rfl
theorem test_decode_crcvfy : decode 0b00010010#8 = .ok .crcvfy := by rfl
theorem test_decode_bldrd : decode 0b00100000#8 = .ok .bldrd := by rfl
theorem test_decode_bldwr : decode 0b00100001#8 = .ok .bldwr := by rfl
theorem test_decode_parse : decode 0b00100010#8 = .ok .parse := by rfl
theorem test_decode_denc : decode 0b00110000#8 = .ok .denc := by rfl
theorem test_decode_ddec : decode 0b00110001#8 = .ok .ddec := by rfl
theorem test_decode_zzenc : decode 0b01000000#8 = .ok .zzenc := by rfl
theorem test_decode_zzdec : decode 0b01000001#8 = .ok .zzdec := by rfl
theorem test_decode_venc : decode 0b01000010#8 = .ok .venc := by rfl
theorem test_decode_vdec : decode 0b01000011#8 = .ok .vdec := by rfl
theorem test_decode_pack : decode 0b01000100#8 = .ok .pack := by rfl
theorem test_decode_unpack : decode 0b01000101#8 = .ok .unpack := by rfl

/-- The reserved values of V-S5. -/
theorem test_decode_reserved :
    ([0x0F, 0x13, 0x1F, 0x23, 0x2F, 0x32, 0x3F, 0x46, 0x4F, 0x50, 0x80, 0xFF] : List Byte).all
      (fun op => (decode op).toOption.isNone) = true := by decide

theorem test_decode_table_word : decodeTableWord 8 0x44 = some .pack := by rfl

/-- With 8 bits, those above are not the word's. -/
theorem test_decode_table_word_high_bits : decodeTableWord 8 0x110 = some .crc16 := by rfl

theorem test_decode_table_word_reserved : decodeTableWord 8 0x46 = none := by rfl

/-! ### The host port (V-A1 to V-A7, V-S4, V-S6) and the step -/

/-- The word of a command placed where the step takes its next event runs as the first command after reset (V-C12). -/
theorem test_fetch_crc16 : gives (step (State.reset.withFetchWord 8 0x10))
    (fun t => decide (t.csr = { Csrs.reset with cmd := 0x10, crc := 0xFFFF }) && decide (t.script = [])) = true := by
  decide +kernel

/-- V-S6: the port value 0x110 is truncated to the opcode 0x10. -/
theorem test_command_word_is_truncated : gives (step (pending [.write 0 0 0x110]))
    (fun t => decide (t.csr = { Csrs.reset with cmd := 0x10, crc := 0xFFFF })) = true := by decide +kernel

/-- V-S4: a reserved opcode. -/
theorem test_reserved_opcode :
    gives (hostWrite 0 0 0x03 (withCsr { Csrs.reset with status := 0x10, crc := 0xF074 }))
      (fun t => decide (t.csr = { Csrs.reset with cmd := 0x03, status := 0x07, sticky := 0x080, crc := 0xF074 }))
      = true := by decide

/-- V-A1: CRC is read only. -/
theorem test_write_read_only_csr : gives (hostWrite 0 10 0x1234 State.reset)
    (fun t => decide (t.csr = { Csrs.reset with sticky := 0x100 })) = true := by decide

/-- V-A2: CSR 17 does not exist; what the read returns is the free value (assumption 4), so only its place is tested. -/
theorem test_read_outside : (hostRead 0 17 State.reset).csr.sticky = 0x100 ∧
    (hostRead 0 17 State.reset).returned.length = 1 := by decide

/-- V-A3: no space 6; REG has the indices 0 to 126. -/
theorem test_write_outside : gives (hostWrite 5 127 0 State.reset)
    (fun t => decide (t.csr.sticky = 0x100) && decide (t.reg = [])) = true ∧
    gives (hostWrite 6 0 0 State.reset) (fun t => decide (t.csr.sticky = 0x100)) = true := by decide

/-- V-A4: LEN is truncated to 16 bits. -/
theorem test_write_len : gives (hostWrite 0 6 0x1FFFF State.reset)
    (fun t => decide (t.csr = { Csrs.reset with len := 0xFFFF })) = true := by decide

/-- V-A6: a delta is truncated when written and zero-extended when read. -/
theorem test_write_delta : gives (hostWrite 4 0 0xFFFFFFFFFFFFFFFF State.reset)
    (fun t => decide ((hostRead 4 0 t).returned = [0x00000000FFFFFFFF])) = true := by decide

/-- V-A7: a byte is truncated. -/
theorem test_write_byte : gives (hostWrite 1 0 0x1AB State.reset)
    (fun t => decide ((hostRead 1 0 t).returned = [0xAB])) = true := by decide

/-- R181: a reset clears the CSRs and starts a new draw of the buffers; the next events stay. -/
theorem test_external_reset :
    gives (step ((input [0x11]).setScript [.reset, .read 0 6]))
      (fun t => decide (t.csr = Csrs.reset) && decide (t.ib = []) && decide (t.epoch = 1) && decide (t.draws = 2) &&
        decide (t.script = [.read 0 6])) = true := by decide

/-! ### SYS unit (V-S1 to V-S3) -/

theorem test_nop : gives (exec .nop (withCsr { Csrs.reset with cmd := 0x22, status := 0x02, sticky := 0x004 }))
    (fun t => decide (t.csr = { Csrs.reset with cmd := 0x00, status := 0x00, sticky := 0x004 })) = true := by decide

theorem test_clrs : gives (exec .clrs (withCsr { Csrs.reset with status := 0x20, sticky := 0x105 }))
    (fun t => decide (t.csr = { Csrs.reset with cmd := 0x01, status := 0x00, sticky := 0x000 })) = true := by decide

theorem test_sreset :
    gives (exec .sreset ((withCsr { Csrs.reset with
        slave := 0x11, len := 9, val := 0xDEADBEEF, crc := 0x9A86, sticky := 0x1FF }).setOb (holding [0x11])))
      (fun t => decide (t.csr = Csrs.reset) && decide (t.readOb 0 = 0x11)) = true := by decide

/-! ### CRC unit (V-C3, V-C5, V-C9, V-C15 to V-C25) -/

theorem test_crc16_function : crc16 [0xFF] = 0x00FF ∧ crc16 [0x11] = 0x4C7F ∧
    crc16 [0x31, 0x32, 0x33, 0x34, 0x35, 0x36, 0x37, 0x38, 0x39] = 0x4B37 := by decide +kernel

/-- V-C25: only `IB[0]` counts. -/
theorem test_crc16 : gives (exec .crc16 ((withLen 1).setIb (holding [0x11, 0x83, 0x02])))
    (fun t => decide (t.csr = { Csrs.reset with cmd := 0x10, len := 1, crc := 0x4C7F })) = true := by decide +kernel

/-- V-C22 -/
theorem test_crc16_too_long : gives (exec .crc16 (withLen 2049))
    (fun t => decide (t.csr = { Csrs.reset with cmd := 0x10, status := 0x06, sticky := 0x040, len := 2049 })) = true := by
  decide

/-- V-C15 -/
theorem test_crcapp : gives (exec .crcapp (input [0x11, 0x83, 0x02]))
    (fun t => decide (t.csr = { Csrs.reset with cmd := 0x11, len := 3, crc := 0x34C1, rlen := 5 }) &&
      decide (t.ob = holding [0x11, 0x83, 0x02, 0xC1, 0x34])) = true := by decide +kernel

/-- V-C24: 2049 bytes do not fit OB. -/
theorem test_crcapp_too_long : gives (exec .crcapp (withLen 2047))
    (fun t => decide (t.csr.status = 0x06) && decide (t.ob = [])) = true := by decide

/-- V-C13 -/
theorem test_crcvfy : gives (exec .crcvfy (input [0x11, 0x03, 0x00, 0x00, 0x00, 0x01, 0x86, 0x9A]))
    (fun t => decide (t.csr = { Csrs.reset with cmd := 0x12, len := 8, crc := 0x9A86 })) = true := by decide +kernel

/-- V-C18 -/
theorem test_crcvfy_mismatch : gives (exec .crcvfy (input [0x11, 0x03, 0x00, 0x00, 0x00, 0x00, 0x86, 0x9A]))
    (fun t => decide (t.csr = { Csrs.reset with cmd := 0x12, status := 0x02, sticky := 0x004, len := 8 })) = true := by
  decide +kernel

/-! ### FRAME unit (V-B3, V-B4, V-F1, V-F4, V-F8, V-F17, V-F18, V-F24) -/

/-- V-B3: nothing is validated. -/
theorem test_bldrd : gives (exec .bldrd (withCsr { Csrs.reset with slave := 0x00, addr := 0xFFFF, data := 0xFFFF }))
    (fun t => decide (t.ob = holding [0x00, 0x03, 0xFF, 0xFF, 0xFF, 0xFF, 0x45, 0x8F]) &&
      decide (t.csr.crc = 0x8F45) && decide (t.csr.rlen = 8)) = true := by decide +kernel

/-- V-B4: both byte orders in one frame. -/
theorem test_bldwr : gives (exec .bldwr (withCsr { Csrs.reset with slave := 0xFF, addr := 0x1234, data := 0xABCD }))
    (fun t => decide (t.ob = holding [0xFF, 0x06, 0x12, 0x34, 0xAB, 0xCD, 0x66, 0x07]) &&
      decide (t.csr.crc = 0x0766) && decide (t.csr.rlen = 8)) = true := by decide +kernel

/-- V-F1 -/
theorem test_parse_registers : gives (exec .parse (input [0x11, 0x03, 0x02, 0x12, 0x34, 0x74, 0xF0]))
    (fun t => decide (t.csr = { Csrs.reset with
        cmd := 0x22, status := 0x10, len := 7, crc := 0xF074, rcnt := 1, raddr := 0x11, rfunc := 0x03 }) &&
      decide (t.reg = holding [0x1234])) = true := by decide +kernel

/-- V-F4 -/
theorem test_parse_exception : gives (exec .parse (input [0x11, 0x83, 0x02, 0xC1, 0x34]))
    (fun t => decide (t.csr = { Csrs.reset with
        cmd := 0x22, status := 0x20, sticky := 0x001, len := 5, crc := 0x34C1, raddr := 0x11, rfunc := 0x83,
        exc := 0x02, reason := 2 })) = true := by decide +kernel

/-! ### DELTA unit (V-D5, V-D9, V-D18, V-D19) -/

/-- V-D5 -/
theorem test_denc : gives (exec .denc (series [2300, 2301, 2299, 2299, 2305, -5]))
    (fun t => decide (t.dlt = holding ([2300, 1, -2, 0, 6, -2310].map (BitVec.ofInt 32))) &&
      decide (t.csr = { Csrs.reset with cmd := 0x30, cnt := 6, rcnt := 6 })) = true := by decide +kernel

/-- V-D9: the difference 4294967295 does not fit, and `DLT[0]` is not written either. -/
theorem test_denc_range : gives (exec .denc (series [-2147483648, 2147483647]))
    (fun t => decide (t.dlt = []) &&
      decide (t.csr = { Csrs.reset with cmd := 0x30, status := 0x05, sticky := 0x020, cnt := 2 })) = true := by
  decide +kernel

/-- V-D18 -/
theorem test_ddec_negative : gives (exec .ddec (deltas [-5]))
    (fun t => decide (t.ser = holding [0xFFFFFFFFFFFFFFFB#64])) = true := by decide +kernel

/-- V-D19: the sum leaves 32 bits. -/
theorem test_ddec : gives (exec .ddec (deltas [2147483647, 2147483647]))
    (fun t => decide (t.ser = holding ([2147483647, 4294967294].map (BitVec.ofInt 64))) &&
      decide (t.csr = { Csrs.reset with cmd := 0x31, cnt := 2, rcnt := 2 })) = true := by decide +kernel

/-! ### VARINT unit (V-Z16, V-Z18, V-V8, V-V13, V-V27, V-V31, V-P3, V-P5, V-P6, V-P18) -/

/-- V-Z16: the shift loses bit 31. -/
theorem test_zzenc : gives (exec .zzenc (withCsr { Csrs.reset with val := 0x7FFFFFFF }))
    (fun t => decide (t.csr = { Csrs.reset with cmd := 0x40, val := 0xFFFFFFFE })) = true := by decide +kernel

/-- V-Z18 -/
theorem test_zzenc_smallest : gives (exec .zzenc (withCsr { Csrs.reset with val := 0x80000000 }))
    (fun t => decide (t.csr.val = 0xFFFFFFFF)) = true := by decide +kernel

/-- V-Z11 -/
theorem test_zzdec : gives (exec .zzdec (withCsr { Csrs.reset with val := 0x000001F3 }))
    (fun t => decide (t.csr = { Csrs.reset with cmd := 0x41, val := 0xFFFFFF06 })) = true := by decide +kernel

/-- V-Z16 -/
theorem test_zzdec_even : gives (exec .zzdec (withCsr { Csrs.reset with val := 0xFFFFFFFE }))
    (fun t => decide (t.csr.val = 0x7FFFFFFF)) = true := by decide +kernel

/-- V-V8 -/
theorem test_venc : gives (exec .venc (withCsr { Csrs.reset with val := 0x000704E0 }))
    (fun t => decide (t.ob = holding [0xE0, 0x89, 0x1C]) &&
      decide (t.csr = { Csrs.reset with cmd := 0x42, val := 0x000704E0, rlen := 3 })) = true := by decide +kernel

/-- V-V13 -/
theorem test_venc_five_bytes : gives (exec .venc (withCsr { Csrs.reset with val := 0xFFFFFFFE }))
    (fun t => decide (t.ob = holding [0xFE, 0xFF, 0xFF, 0xFF, 0x0F])) = true := by decide +kernel

/-- V-V27 -/
theorem test_vdec : gives
    (exec .vdec ((withCsr { Csrs.reset with len := 4, off := 1 }).setIb (holding [0x00, 0xAC, 0x02, 0x05])))
    (fun t => decide (t.csr = { Csrs.reset with cmd := 0x43, len := 4, off := 3, val := 300, rlen := 2 })) = true := by
  decide +kernel

/-- V-V31: the input ends at LEN, though `IB[2]` holds the rest of the value. -/
theorem test_vdec_cut : gives
    (exec .vdec ((withCsr { Csrs.reset with len := 2, off := 1 }).setIb (holding [0x00, 0xAC, 0x02, 0x05])))
    (fun t => decide (t.csr = { Csrs.reset with cmd := 0x43, status := 0x04, sticky := 0x010, len := 2, off := 1 }))
      = true := by decide +kernel

/-- V-P3 -/
theorem test_pack : gives (exec .pack (deltas [2300, 1, -2, 0, 6, -2310]))
    (fun t => decide (t.ob = holding [0xF8, 0x23, 0x02, 0x03, 0x00, 0x0C, 0x8B, 0x24]) &&
      decide (t.csr = { Csrs.reset with cmd := 0x44, cnt := 6, rlen := 8, rcnt := 6 })) = true := by decide +kernel

/-- V-P18: a stream of 10 bytes does not fit an OB of 8. -/
theorem test_pack_too_long : gives (exec .pack (capacities 8 256 (deltas [-2147483648, -2147483648])))
    (fun t => decide (t.ob = []) && decide (t.csr.status = 0x06)) = true := by decide +kernel

/-- V-P5 -/
theorem test_unpack : gives (exec .unpack (input [0xE0, 0x89, 0x1C, 0xAC, 0x02, 0xF3, 0x03]))
    (fun t => decide (t.dlt = holding ([230000, 150, -250].map (BitVec.ofInt 32))) &&
      decide (t.csr = { Csrs.reset with cmd := 0x45, len := 7, rlen := 7, rcnt := 3 })) = true := by decide +kernel

/-- V-P6: nothing is written although two values decoded before the fault. -/
theorem test_unpack_malformed : gives (exec .unpack (input [0xE0, 0x89, 0x1C, 0xAC, 0x02, 0xF3]))
    (fun t => decide (t.dlt = []) &&
      decide (t.csr = { Csrs.reset with cmd := 0x45, status := 0x04, sticky := 0x010, len := 6 })) = true := by
  decide +kernel

/-! ### Witnesses: hypotheses of the statements, met together by a concrete state and operands, clause by clause -/

/-- Frames of the vectors: V-F1, V-F2, V-F4, V-F6, V-F7, V-F8, V-F9, V-F20. -/
def frameF1 : State := input [0x11, 0x03, 0x02, 0x12, 0x34, 0x74, 0xF0]
def frameF2 : State := input [0x11, 0x03, 0x00, 0x21, 0x35]
def frameF4 : State := input [0x11, 0x83, 0x02, 0xC1, 0x34]
def frameF6 : State := input [0x11, 0x83, 0x4C, 0x41]
def frameF7 : State := input [0x11, 0x03, 0x4D, 0xE1]
def frameF8 : State := input [0x11, 0x03, 0x03, 0x01, 0x02, 0x03, 0x57, 0xBF]
def frameF9 : State := input [0x11, 0x03, 0x04, 0x00, 0x01, 0x58, 0x46]
def frameF20 : State := input [0x11, 0x06, 0x8D, 0xE2]

/-- The body of the largest response, V-F22: 127 registers. -/
def bodyF22 : List Byte := [0x11, 0x03, 0xFE] ++ (List.range 254).map (BitVec.ofNat 8)

/-- The largest response, its CRC left to be computed. -/
def frameF22 : State := input (bodyF22 ++ crcBytes (crc16 bodyF22))

theorem witness_ReservedOpcodesAreRefusedByTheDecoder :
    (∀ i, encode i ≠ 0x03#8) ∧ (∀ i, encode i ≠ 0x46#8) ∧ (∀ i, encode i ≠ 0xFF#8) := by
  refine ⟨?_, ?_, ?_⟩ <;> intro i <;> cases i <;> decide

theorem witness_StepRunsTheDecodedCommand :
    (pending [.write 0 0 0x110, .read 0 1]).script = .write 0 0 0x110 :: [.read 0 1] ∧
      decode ((0x110 : Dword).setWidth 8) = .ok .crc16 := by
  exact ⟨rfl, rfl⟩

theorem witness_ReservedOpcodeEndsWithIllegalCmd :
    (pending [.write 0 0 0x1FF]).script = .write 0 0 0x1FF :: [] ∧ ∀ i, encode i ≠ (0x1FF : Dword).setWidth 8 := by
  refine ⟨rfl, fun i => ?_⟩
  cases i <;> decide

theorem witness_ResetClearsEveryRegister : (pending [.reset, .read 0 0]).script = .reset :: [.read 0 0] := by
  rfl

theorem witness_ResetMakesBuffersUnspecified :
    (pending [.reset]).script = .reset :: [] ∧ (pending [.reset]).epoch < (pending [.reset]).draws := by
  decide

/-- A reset, and a refused read, which takes a draw but leaves the epoch. -/
theorem witness_NoStepTakesADrawAgain :
    (step (pending [.reset]) = .next (endState (step (pending [.reset]))) ∧
      (pending [.reset]).script.head? = some .reset) ∧
    (step (pending [.read 6 0]) = .next (endState (step (pending [.read 6 0]))) ∧
      (pending [.read 6 0]).script.head? ≠ some .reset) := by
  exact ⟨⟨rfl, by decide⟩, ⟨rfl, by decide⟩⟩

/-- The invariant holds in a state from which a step runs a command. -/
theorem witness_EveryStepKeepsTheInvariant :
    (pending [.write 0 0 0x01]).Inv ∧
      step (pending [.write 0 0 0x01]) = .next (endState (step (pending [.write 0 0 0x01]))) := by
  refine ⟨⟨?_, ?_, ?_, ?_, ?_, ?_, ?_, ?_, ?_⟩, rfl⟩ <;> decide +kernel

/-- Both bounds of the error numbers: TOO_SHORT of a PARSE, ILLEGAL_CMD of a reserved word. -/
theorem witness_ErrorEndChangesThreeRegistersOnly :
    (runCommand 0x22 State.reset = .next (endState (runCommand 0x22 State.reset)) ∧
      statusErr (endState (runCommand 0x22 State.reset)).csr.status = 1) ∧
    (runCommand 0xFF State.reset = .next (endState (runCommand 0xFF State.reset)) ∧
      statusErr (endState (runCommand 0xFF State.reset)).csr.status = 7) := by
  exact ⟨⟨rfl, by decide⟩, ⟨rfl, by decide⟩⟩

/-- Kind NONE, and each kind of a PARSE. -/
theorem witness_SuccessfulEndWritesCommandAndStatus :
    (exec .nop State.reset = .next (endState (exec .nop State.reset)) ∧
      statusErr (endState (exec .nop State.reset)).csr.status = 0) ∧
    gives (exec .parse frameF1) (fun t => decide (t.csr.status = 0x10)) = true ∧
    gives (exec .parse frameF4) (fun t => decide (t.csr.status = 0x20)) = true ∧
    gives (exec .parse frameF20) (fun t => decide (t.csr.status = 0x30)) = true := by
  exact ⟨⟨rfl, by decide⟩, by decide +kernel, by decide +kernel, by decide +kernel⟩

/-- The last sticky bit, over a NOP and over a read. -/
theorem witness_StickyBitsStayUntilCleared :
    (∀ v : Dword, HostEvent.write 0 0 0x00 = .write 0 0 v → v.setWidth 8 ≠ 0x01#8 ∧ v.setWidth 8 ≠ 0x02#8) ∧
    (∀ v : Dword, HostEvent.read 0 2 = .write 0 0 v → v.setWidth 8 ≠ 0x01#8 ∧ v.setWidth 8 ≠ 0x02#8) ∧
    gives (step ((withCsr { Csrs.reset with sticky := 0x100 }).setScript [.write 0 0 0x00]))
      (fun t => t.csr.sticky.getLsbD 8) = true ∧
    gives (step ((withCsr { Csrs.reset with sticky := 0x100 }).setScript [.read 0 2]))
      (fun t => t.csr.sticky.getLsbD 8) = true := by
  refine ⟨fun v h => ?_, fun v h => (by cases h), by decide, by decide⟩
  cases h
  decide

theorem witness_CommandsWriteOnlyTheirRegisters :
    exec .bldrd State.reset = .next (endState (exec .bldrd State.reset)) ∧ writesResult .bldrd .rcnt = false := by
  exact ⟨rfl, rfl⟩

/-- The three cases: an error, another buffer, and the first index behind the range. -/
theorem witness_CommandsWriteOnlyTheirRange :
    State.reset.params.wf = true ∧
    (exec .parse State.reset = .next (endState (exec .parse State.reset)) ∧
      statusErr (endState (exec .parse State.reset)).csr.status ≠ 0) ∧
    (exec .bldrd State.reset = .next (endState (exec .bldrd State.reset)) ∧ outputBuffer .bldrd ≠ some .ib) ∧
    writtenCount .ob (endState (exec .bldrd State.reset)) ≤ 8 := by
  exact ⟨by decide, ⟨rfl, by decide⟩, ⟨rfl, by decide⟩, by decide⟩

/-- Two states that differ only behind LEN: V-C25, and the same without the bytes that do not count. -/
theorem witness_ResultsDependOnlyOnInputs :
    sameInputs ((withLen 1).setIb (holding [0x11, 0x83, 0x02])) (input [0x11]) ∧
    exec .venc State.reset = .next (endState (exec .venc State.reset)) ∧
    statusErr (endState (exec .venc State.reset)).csr.status = 0 ∧ outputBuffer .venc = some .ob ∧
    0 < writtenCount .ob (endState (exec .venc State.reset)) := by
  refine ⟨⟨rfl, rfl, fun k hk _ => ?_, fun _ _ _ => rfl, fun _ _ _ => rfl⟩, rfl, by decide, rfl, by decide⟩
  obtain rfl : k = 0 := Nat.lt_one_iff.1 hk
  rfl

/-- The last element of each space. -/
theorem witness_HostReadReturnsTheElement :
    (pending [.read 0 16]).script = .read 0 16 :: [] ∧ (pending [.read 1 2047]).script = .read 1 2047 :: [] ∧
    2047 < State.reset.params.nb ∧ 255 < State.reset.params.nw ∧
    ((16, (State.reset.csr.reason.setWidth 64 : Dword)) ∈ [(0, State.reset.csr.cmd.setWidth 64),
      (16, State.reset.csr.reason.setWidth 64)]) := by
  decide

/-- The first and the last operand register, and CMD. -/
theorem witness_HostWriteStoresInRegisters :
    gives (step (pending [.write 0 3 0x1FF])) (fun t => decide (t.csr = { Csrs.reset with slave := 0xFF })) = true ∧
    gives (step (pending [.write 0 9 0xFFFFFFFFF])) (fun t => decide (t.csr = { Csrs.reset with val := 0xFFFFFFFF }))
      = true ∧
    (pending [.write 0 0 0x00]).script = .write 0 0 0x00 :: [] := by
  decide

/-- The last element of each buffer. -/
theorem witness_HostWriteStoresInBuffers :
    gives (step (pending [.write 1 2047 0x1AB])) (fun t => decide (t.ib = [(2047, 0xAB)])) = true ∧
    gives (step (pending [.write 2 2047 0x1AB])) (fun t => decide (t.ob = [(2047, 0xAB)])) = true ∧
    gives (step (pending [.write 3 255 0x1AB])) (fun t => decide (t.ser = [(255, 0x1AB)])) = true ∧
    gives (step (pending [.write 4 255 0x1AB])) (fun t => decide (t.dlt = [(255, 0x1AB)])) = true ∧
    gives (step (pending [.write 5 126 0x1AB])) (fun t => decide (t.reg = [(126, 0x1AB)])) = true := by
  decide

/-- The first index outside each space, a space that does not exist, and the bounds of the read-only registers. -/
theorem witness_RefusedAccessSetsAccessOnly :
    (([(0, 17), (1, 2048), (2, 2048), (3, 256), (4, 256), (5, 127), (6, 0)] : List (Nat × Nat)).all fun a =>
      decide (State.reset.params.spaceSize a.1 ≤ a.2)) = true ∧
    (([1, 2, 10, 16] : List Nat).all fun index =>
      gives (step (pending [.write 0 index 0])) fun t => decide (t.csr = { Csrs.reset with sticky := 0x100 })) = true ∧
    (pending [.read 6 0]).script = .read 6 0 :: [] := by
  decide

theorem witness_CrcDetectsEverySingleBitChange :
    crc16 ([0x11#8] ++ (0x03#8 ^^^ (1#8 <<< 7)) :: []) = 0x414C ∧ crc16 ([0x11#8] ++ 0x03#8 :: []) = 0xE14D := by
  decide +kernel

/-- LEN at NB and one above it. -/
theorem witness_Crc16CommandResult :
    (withLen 2048).lenOperand ≤ (withLen 2048).params.nb ∧ (withLen 2049).params.nb < (withLen 2049).lenOperand := by
  decide

/-- V-C24: LEN at NB - 2 and one above it. -/
theorem witness_CrcappCommandResult :
    (withLen 2046).lenOperand + 2 ≤ (withLen 2046).params.nb ∧
      (withLen 2047).params.nb < (withLen 2047).lenOperand + 2 := by
  decide

/-- V-C19 to V-C22: LEN above NB, LEN 1, and LEN 2 without and with the CRC of the empty message. -/
theorem witness_CrcvfyCommandResult :
    (withLen 2049).params.nb < (withLen 2049).lenOperand ∧ (withLen 1).lenOperand < 2 ∧
    ¬ (input [0x00, 0x00]).endsInCrc 2 ∧ (input [0xFF, 0xFF]).endsInCrc 2 ∧ (input [0xFF, 0xFF]).lenOperand = 2 := by
  refine ⟨by decide, by decide, ?_, ?_, by decide⟩ <;> unfold State.endsInCrc <;> decide +kernel

/-- The CRCs of V-B3 and V-B4, as their builders compute them. -/
theorem witness_BldrdCommandResult :
    0x8F45 = crc16 [0x00, 0x03, (0xFFFF : Half).extractLsb' 8 8, (0xFFFF : Half).extractLsb' 0 8,
      (0xFFFF : Half).extractLsb' 8 8, (0xFFFF : Half).extractLsb' 0 8] := by
  decide +kernel

theorem witness_BldwrCommandResult :
    0x0766 = crc16 [0xFF, 0x06, (0x1234 : Half).extractLsb' 8 8, (0x1234 : Half).extractLsb' 0 8,
      (0xABCD : Half).extractLsb' 8 8, (0xABCD : Half).extractLsb' 0 8] := by
  decide +kernel

/-- LEN above NB; LEN 3; LEN 4 with a wrong CRC. -/
theorem witness_ParseTestsLengthThenCrc :
    (withLen 2049).params.nb < (withLen 2049).lenOperand ∧ (withLen 3).lenOperand < 4 ∧
    (input [0x11, 0x06, 0x8D, 0xE3]).lenOperand = 4 ∧ ¬ (input [0x11, 0x06, 0x8D, 0xE3]).endsInCrc 4 := by
  refine ⟨by decide, by decide, by decide, ?_⟩
  unfold State.endsInCrc
  decide +kernel

/-- V-F6 with 4 bytes, V-F4 with 5. -/
theorem witness_ParseOfExceptionResponse :
    (frameF6.lenOperand = 4 ∧ frameF6.endsInCrc 4 ∧ (frameF6.readIb 1).getLsbD 7 = true) ∧
    (frameF4.lenOperand = 5 ∧ frameF4.endsInCrc 5 ∧ (frameF4.readIb 1).getLsbD 7 = true) := by
  unfold State.endsInCrc
  decide +kernel

/-- V-F7 with 4 bytes; V-F9 and V-F8 for the two wrong counts; V-F2 and V-F1 with 0 and 1 registers. -/
theorem witness_ParseOfReadResponse :
    (frameF7.lenOperand = 4 ∧ frameF7.endsInCrc 4 ∧ frameF7.readIb 1 = 0x03) ∧
    (frameF9.lenOperand = 7 ∧ frameF9.endsInCrc 7 ∧ frameF9.readIb 1 = 0x03 ∧ frameF9.readIb 2 = 4) ∧
    (frameF8.lenOperand = 8 ∧ frameF8.endsInCrc 8 ∧ frameF8.readIb 1 = 0x03 ∧ frameF8.readIb 2 = 3) ∧
    (frameF2.lenOperand = 5 ∧ frameF2.endsInCrc 5 ∧ frameF2.readIb 1 = 0x03 ∧ frameF2.readIb 2 = 0) ∧
    (frameF1.lenOperand = 7 ∧ frameF1.endsInCrc 7 ∧ frameF1.readIb 1 = 0x03 ∧ frameF1.readIb 2 = 2) := by
  unfold State.endsInCrc
  decide +kernel

theorem readIb_input (bytes : List Byte) {k : Nat} (h : k < bytes.length) :
    (input bytes).readIb k = bytes.getD k 0 := by
  have := Memory.read_writeFrom_zero bytes [] (Config.unwritten 8 0 1) k
  rw [if_pos h] at this
  exact this

theorem ibBytes_input_append (front back : List Byte) : (input (front ++ back)).ibBytes front.length = front := by
  refine List.ext_getElem (by simp [State.ibBytes]) fun k h1 h2 => ?_
  simp [State.ibBytes, readIb_input, Nat.lt_add_right _ h2, h2]

/-- A body followed by its CRC, low byte first, ends in its CRC. -/
theorem endsInCrc_input (body : List Byte) :
    (input (body ++ crcBytes (crc16 body))).endsInCrc (body.length + 2) := by
  unfold State.endsInCrc
  rw [show body.length + 2 - 2 = body.length from rfl, show body.length + 2 - 1 = body.length + 1 from rfl,
    ibBytes_input_append, readIb_input _ (by simp [crcBytes]), readIb_input _ (by simp [crcBytes])]
  simp [crcBytes, loByte, hiByte]

/-- V-F22: the largest response, 254 bytes of registers. -/
theorem witness_ParseOfReadResponse_largest :
    frameF22.lenOperand = 259 ∧ frameF22.endsInCrc 259 ∧ frameF22.readIb 1 = 0x03 ∧ frameF22.readIb 2 = 254 := by
  have h := endsInCrc_input bodyF22
  rw [show bodyF22.length = 257 by simp [bodyF22]] at h
  exact ⟨by decide +kernel, h, by decide +kernel, by decide +kernel⟩

/-- V-F20: the shortest frame. -/
theorem witness_ParseOfOtherResponse :
    frameF20.lenOperand = 4 ∧ frameF20.endsInCrc 4 ∧ (frameF20.readIb 1).getLsbD 7 = false ∧
      frameF20.readIb 1 ≠ 0x03 := by
  unfold State.endsInCrc
  decide +kernel

/-- Legal parameters, and codes on both sides of 0x01 to 0x0B. -/
theorem witness_ReasonIndexOfACode :
    Config.exampleParams.wf = true ∧ (0x00#8).toNat = 0 ∧ 11 < (0x0C#8).toNat ∧
      excReason Config.exampleParams 0x0B = 9 := by
  decide

/-- CNT above NW; a value one outside each bound (V-D11); both bounds themselves; no value at all. -/
theorem witness_DencCommandResult :
    (withCnt 257).params.nw < (withCnt 257).cntOperand ∧
    ((0 < (series [-2147483649]).cntOperand) ∧ (series [-2147483649]).exactDelta 0 < -2 ^ 31) ∧
    ((0 < (series [2147483648]).cntOperand) ∧ 2 ^ 31 - 1 < (series [2147483648]).exactDelta 0) ∧
    (∀ k, k < (series [-2147483648, -1]).cntOperand →
      -2 ^ 31 ≤ (series [-2147483648, -1]).exactDelta k ∧ (series [-2147483648, -1]).exactDelta k ≤ 2 ^ 31 - 1) ∧
    (withCnt 0).cntOperand = 0 := by
  refine ⟨by decide, by decide +kernel, by decide +kernel, fun k hk => ?_, by decide⟩
  have h2 : k < 2 := hk
  obtain rfl | rfl : k = 0 ∨ k = 1 := by omega
  all_goals decide +kernel

/-- CNT above NW; two deltas, so that the second clause has an element. -/
theorem witness_DdecCommandResult :
    (withCnt 257).params.nw < (withCnt 257).cntOperand ∧ (withCnt 256).cntOperand ≤ (withCnt 256).params.nw ∧
      0 + 1 < (deltas [1, 2]).cntOperand := by
  decide

/-- V-D4. -/
theorem witness_DeltaDecodeInvertsEncode :
    deltaEncode ([230000, 230150, 229900, 229900].map (BitVec.ofInt 64)) =
      some ([230000, 150, -250, 0].map (BitVec.ofInt 32)) := by
  decide +kernel

theorem witness_DeltaEncodeInvertsDecode : ([2147483647, 2147483647] : List Word).length ≤ 65535 := by
  decide

/-- DENC of V-D3, then DDEC of what it left. -/
theorem witness_DencThenDdecRestoresTheSeries :
    ∃ s t v : State, exec .denc s = .next t ∧ statusErr t.csr.status = 0 ∧ t.csr.cnt = s.csr.cnt ∧
      s.cntOperand = 3 ∧ exec .ddec t = .next v :=
  ⟨series [7, 7, 7], endState (exec .denc (series [7, 7, 7])),
    endState (exec .ddec (endState (exec .denc (series [7, 7, 7])))), rfl, by decide +kernel, by decide +kernel, rfl, rfl⟩

/-- V-V19, V-V23, V-V21 and V-V18 for the clauses at the fifth byte; V-V1 for the first byte. -/
theorem witness_VarintDecodeOfAByteSequence :
    (∀ j, j < 4 → 0 + j < [0x80#8, 0x80, 0x80, 0x80, 0x08].length ∧
      ([0x80#8, 0x80, 0x80, 0x80, 0x08].getD (0 + j) 0).getLsbD 7 = true) ∧
    ([0x80#8, 0x80, 0x80, 0x80, 0x08].getD 4 0).getLsbD 7 = false ∧
    ([0x80#8, 0x80, 0x80, 0x80, 0x08].getD 4 0).extractLsb' 4 3 = 0 ∧
    ([0xFF#8, 0xFF, 0xFF, 0xFF, 0x1F].getD 4 0).extractLsb' 4 3 ≠ 0 ∧
    ([0x80#8, 0x80, 0x80, 0x80, 0x80].getD 4 0).getLsbD 7 = true ∧
    (∀ j, j < 1 → 0 + j < [0x80#8].length ∧ ([0x80#8].getD (0 + j) 0).getLsbD 7 = true) ∧ [0x80#8].length ≤ 0 + 1 ∧
    ([0x00#8].getD (0 + 0) 0).getLsbD 7 = false := by
  decide

/-- V-P7's cut value, and V-P8's first value. -/
theorem witness_DecodeStreamTakesValueAfterValue :
    varintDecode [0xE0, 0x89] 0 = none ∧ varintDecode [0xE0, 0x89, 0x1C, 0xAC, 0x02] 0 = some (0x000704E0, 3) := by
  decide +kernel

/-- V-V32, V-V29 (`OFF = LEN`), and V-V28 (the last byte). -/
theorem witness_VdecCommandResult :
    (withLen 2049).params.nb < (withLen 2049).lenOperand ∧
    varintDecode ((input [0x00, 0xAC, 0x02, 0x05]).ibBytes 4) 4 = none ∧
    varintDecode ((input [0x00, 0xAC, 0x02, 0x05]).ibBytes 4) 3 = some (5, 4) ∧
    (input [0x00, 0xAC, 0x02, 0x05]).lenOperand = 4 := by
  decide +kernel

/-- CNT above NW; a stream of 10 bytes in an OB of 9 and of 10 bytes (V-P18 with these sizes). -/
theorem witness_PackCommandResult :
    (withCnt 257).params.nw < (withCnt 257).cntOperand ∧
    (capacities 9 2 (deltas [-2147483648, -2147483648])).cntOperand ≤ 2 ∧
    9 < (encodeStream ((deltas [-2147483648, -2147483648]).dltElements 2)).length ∧
    (encodeStream ((deltas [-2147483648, -2147483648]).dltElements 2)).length ≤ 10 := by
  decide +kernel

/-- LEN above NB; V-P7; V-P10 with NW below and at its three values. -/
theorem witness_UnpackCommandResult :
    (withLen 2049).params.nb < (withLen 2049).lenOperand ∧
    decodeStream ((input [0xE0, 0x89]).ibBytes 2) = none ∧
    decodeStream ((input [0x01, 0x02, 0x03]).ibBytes 3) = some ([-1, 1, -2].map (BitVec.ofInt 32)) ∧
    (capacities 2048 2 (input [0x01, 0x02, 0x03])).params.nw < 3 ∧
    3 ≤ (capacities 2048 3 (input [0x01, 0x02, 0x03])).params.nw := by
  decide +kernel

/-- PACK of two deltas, its two bytes carried to IB, and UNPACK of them. -/
theorem witness_PackThenUnpackRestoresTheDeltas :
    ∃ s t u v : State, s.params.wf = true ∧ exec .pack s = .next t ∧ statusErr t.csr.status = 0 ∧
      u.params = t.params ∧ u.csr.len = t.csr.rlen ∧ (∀ k, k < t.csr.rlen.toNat → u.readIb k = t.readOb k) ∧
      exec .unpack u = .next v := by
  refine ⟨deltas [-1, 1], endState (exec .pack (deltas [-1, 1])), input [0x01, 0x02],
    endState (exec .unpack (input [0x01, 0x02])), by decide, rfl, by decide +kernel, by decide +kernel,
    by decide +kernel, ?_, rfl⟩
  decide +kernel

end Sys2Proof.Tests
end

section
/-! The decoder on a command's own opcode (R61), and the reason index of an exception code (42_frame.md R121) in an
engine with legal parameters (R3). -/

namespace Sys2Proof

theorem decode_encode (i : Instr) : decode (encode i) = .ok i := by
  cases i <;> rfl

/-- No command's opcode is reserved (R63). -/
theorem isNone_decode_encode (i : Instr) : (decode (encode i)).toOption.isNone = false := by
  rw [decode_encode]
  rfl

/-- What `Params.wf` says of the entries of `EXC_MAP` (R3). -/
theorem Params.bounds_of_mem_excMap {p : Params} (h : p.wf = true) {e : Byte × BitVec 4} (he : e ∈ p.excMap) :
    1 ≤ e.1.toNat ∧ e.1.toNat ≤ 11 ∧ 1 ≤ e.2.toNat ∧ e.2.toNat ≤ 9 := by
  simp only [Params.wf, Bool.and_eq_true] at h
  obtain ⟨⟨_, hentries⟩, _⟩ := h
  simpa [and_assoc] using List.all_eq_true.1 hentries e he

/-- Every legal `EXC_MAP` maps 0x02 to reason 2 (R3). -/
theorem Params.lookup_two_excMap {p : Params} (h : p.wf = true) : p.excMap.lookup 2#8 = some 2#4 := by
  simp only [Params.wf, Params.excShapeWf, Bool.and_eq_true, decide_eq_true_eq] at h
  obtain ⟨_, _, htwo⟩ := h
  exact htwo

/-- Every engine has room for the longest result of a fixed size, the 8 bytes of a request (R1). -/
theorem Params.eight_le_nb {p : Params} (h : p.wf = true) : 8 ≤ p.nb := by
  simp only [Params.wf, Params.nbWf, Bool.and_eq_true, decide_eq_true_eq] at h
  obtain ⟨⟨⟨⟨hnb, _⟩, _⟩, _⟩, _⟩ := h
  exact hnb

end Sys2Proof

namespace Sys2Proof.Machine

/-- A code is unknown, or its reason is that of an entry of the table with this code (R121). -/
theorem excReason_cases (p : Params) (code : Byte) :
    excReason p code = 0 ∨ (code, excReason p code) ∈ p.excMap := by
  unfold excReason
  cases h : p.excMap.lookup code with
  | none => exact .inl rfl
  | some r =>
    obtain ⟨front, back, hmap, _⟩ := List.lookup_eq_some_iff.1 h
    exact .inr (by simp [hmap])

theorem excReason_le_nine {p : Params} (h : p.wf = true) (code : Byte) : (excReason p code).toNat ≤ 9 := by
  rcases excReason_cases p code with hzero | hmem
  · simp [hzero]
  · obtain ⟨_, _, _, hreason⟩ := Params.bounds_of_mem_excMap h hmem
    exact hreason

theorem excReason_eq_zero_of_code_outside {p : Params} (h : p.wf = true) {code : Byte}
    (hcode : code.toNat = 0 ∨ 11 < code.toNat) : excReason p code = 0 := by
  rcases excReason_cases p code with hzero | hmem
  · exact hzero
  · obtain ⟨hlow, hhigh, _⟩ := Params.bounds_of_mem_excMap h hmem
    simp only at hlow hhigh
    omega

theorem excReason_two {p : Params} (h : p.wf = true) : excReason p 0x02 = 2 := by
  simp [excReason, Params.lookup_two_excMap h]

/-- Settles O38: a reason is 0 or that of an entry, and R3 bounds the entries. -/
theorem reasonIndexOfACode : Obligations.ReasonIndexOfACode := fun _ code hp =>
  ⟨excReason_le_nine hp code, excReason_eq_zero_of_code_outside hp, excReason_two hp⟩

end Sys2Proof.Machine
end

section
/-! The invariant in two parts: what the parameters, buffers and draws hold (`State.StorageInv`), and what the CSRs
report (`Csrs.ReportInv`). Each update of the state touches one of the parts. -/

namespace Sys2Proof.Machine

/-! ### Storage -/

/-- A buffer in canonical form with nothing outside its index range (R40; assumption 9). -/
def Memory.Valid {w : Nat} (size : Nat) (m : Memory w) : Prop :=
  Memory.wf m = true ∧ Memory.within size m = true

theorem Memory.valid_nil {w : Nat} (size : Nat) : Memory.Valid size ([] : Memory w) := ⟨rfl, rfl⟩

theorem Memory.Valid.write {w size i : Nat} {m : Memory w} (h : Memory.Valid size m) (hi : i < size) (v : BitVec w) :
    Memory.Valid size (m.write i v) :=
  ⟨Memory.wf_write m i v h.1, Memory.within_write size m i v hi h.2⟩

theorem Memory.Valid.writeFrom_zero {w size : Nat} {m : Memory w} (h : Memory.Valid size m) {vs : List (BitVec w)}
    (hvs : vs.length ≤ size) : Memory.Valid size (m.writeFrom 0 vs) :=
  ⟨Memory.wf_writeFrom vs m 0 h.1, Memory.within_writeFrom size vs m 0 (by omega) h.2⟩

/-- The part of the invariant that speaks of no CSR. -/
structure State.StorageInv (s : State) : Prop where
  paramsWf : s.params.wf = true
  ib : Memory.Valid s.params.nb s.ib
  ob : Memory.Valid s.params.nb s.ob
  ser : Memory.Valid s.params.nw s.ser
  dlt : Memory.Valid s.params.nw s.dlt
  reg : Memory.Valid Config.regCount s.reg
  fresh : s.epoch < s.draws

namespace State.StorageInv

variable {s : State}

theorem setCsr (h : s.StorageInv) (c : Csrs) : (s.setCsr c).StorageInv := { h with }

theorem setIb (h : s.StorageInv) {m : Memory 8} (hm : Memory.Valid s.params.nb m) : (s.setIb m).StorageInv :=
  { h with ib := hm }

theorem setOb (h : s.StorageInv) {m : Memory 8} (hm : Memory.Valid s.params.nb m) : (s.setOb m).StorageInv :=
  { h with ob := hm }

theorem setSer (h : s.StorageInv) {m : Memory 64} (hm : Memory.Valid s.params.nw m) : (s.setSer m).StorageInv :=
  { h with ser := hm }

theorem setDlt (h : s.StorageInv) {m : Memory 32} (hm : Memory.Valid s.params.nw m) : (s.setDlt m).StorageInv :=
  { h with dlt := hm }

theorem setReg (h : s.StorageInv) {m : Memory 16} (hm : Memory.Valid Config.regCount m) : (s.setReg m).StorageInv :=
  { h with reg := hm }

theorem pushReturned (h : s.StorageInv) (v : Dword) : (s.pushReturned v).StorageInv := { h with }

theorem nextDraw (h : s.StorageInv) : s.nextDraw.StorageInv :=
  { h with fresh := Nat.lt_succ_of_lt h.fresh }

/-- The external reset empties the buffers and takes a draw that the counter then passes (R37). -/
theorem externalReset (h : s.StorageInv) : (externalReset s).StorageInv where
  paramsWf := h.paramsWf
  ib := Memory.valid_nil _
  ob := Memory.valid_nil _
  ser := Memory.valid_nil _
  dlt := Memory.valid_nil _
  reg := Memory.valid_nil _
  fresh := Nat.lt_succ_self s.draws

end State.StorageInv

/-! ### Reports -/

/-- The part of the invariant that speaks of the CSRs. -/
structure Csrs.ReportInv (p : Params) (c : Csrs) : Prop where
  legal : statusLegal c.status = true
  covered : stickyCovers c.status c.sticky = true
  command : c.commandDescribed = true
  kind : c.kindDescribed p = true
  results : c.resultsWithin p = true

/-- The invariant is its two parts. -/
theorem State.inv_iff (s : State) : s.Inv ↔ s.StorageInv ∧ s.csr.ReportInv s.params := by
  constructor
  · intro h
    have hcanonical := h.canonical
    have hwithin := h.within
    simp only [State.buffersCanonical, State.buffersWithin, Bool.and_eq_true] at hcanonical hwithin
    obtain ⟨⟨⟨⟨hib, hob⟩, hser⟩, hdlt⟩, hreg⟩ := hcanonical
    obtain ⟨⟨⟨⟨hib', hob'⟩, hser'⟩, hdlt'⟩, hreg'⟩ := hwithin
    exact ⟨⟨h.paramsWf, ⟨hib, hib'⟩, ⟨hob, hob'⟩, ⟨hser, hser'⟩, ⟨hdlt, hdlt'⟩, ⟨hreg, hreg'⟩, h.fresh⟩,
      ⟨h.legal, h.covered, h.command, h.kind, h.results⟩⟩
  · rintro ⟨hst, hrep⟩
    refine ⟨hst.paramsWf, ?_, ?_, hrep.legal, hrep.covered, hrep.command, hrep.kind, hrep.results, hst.fresh⟩
    · simp [State.buffersCanonical, hst.ib.1, hst.ob.1, hst.ser.1, hst.dlt.1, hst.reg.1]
    · simp [State.buffersWithin, hst.ib.2, hst.ob.2, hst.ser.2, hst.dlt.2, hst.reg.2]

/-! What each check of a report says. -/

theorem stickyCovers_iff (st : Byte) (sticky : BitVec 9) :
    stickyCovers st sticky = true ↔
      (statusErr st ≠ 0 → sticky.getLsbD (statusErr st).toNat = true) ∧
        (statusKind st = 2 → sticky.getLsbD 0 = true) := by
  simp only [stickyCovers, Bool.and_eq_true, Bool.or_eq_true, decide_eq_true_eq, ne_eq, imp_iff_not_or, not_not]

theorem Csrs.commandDescribed_iff (c : Csrs) :
    c.commandDescribed = true ↔
      (statusKind c.status = 0 ∨ c.cmd = encode .parse) ∧
        (statusErr c.status = 7 ↔ (decode c.cmd).toOption.isNone = true) := by
  simp only [Csrs.commandDescribed, Bool.and_eq_true, Bool.or_eq_true, decide_eq_true_eq, beq_iff_eq]
  rw [Bool.eq_iff_iff (a := decide _), decide_eq_true_eq]

theorem Csrs.resultsWithin_iff (p : Params) (c : Csrs) :
    c.resultsWithin p = true ↔
      c.rlen.toNat ≤ p.nb ∧ c.rcnt.toNat ≤ max p.nw Config.regCount ∧ c.reason.toNat ≤ 9 := by
  simp only [Csrs.resultsWithin, Bool.and_eq_true, decide_eq_true_eq, and_assoc]

/-- The result registers that a PARSE of a kind leaves (R115, R119, R120); kind NONE says nothing of them. -/
def Csrs.AgreesWithKind (p : Params) (c : Csrs) : Kind → Prop
  | .none => True
  | .registers => c.rcnt.toNat ≤ Config.regCount ∧ c.rfunc = 0x03 ∧ c.exc = 0 ∧ c.reason = 0
  | .exception => c.rcnt = 0 ∧ c.rfunc.getLsbD 7 = true ∧ c.reason = excReason p c.exc
  | .other => c.rcnt = 0 ∧ c.exc = 0 ∧ c.reason = 0 ∧ c.rfunc.getLsbD 7 = false ∧ c.rfunc ≠ 0x03

theorem Csrs.kindDescribed_iff (p : Params) (c : Csrs) :
    c.kindDescribed p = true ↔
      ∀ k, statusKind c.status = BitVec.ofNat 2 (kindNumber k) → c.AgreesWithKind p k := by
  simp only [Csrs.kindDescribed, Bool.and_eq_true, Bool.or_eq_true, decide_eq_true_eq, ne_eq, ← imp_iff_not_or,
    Bool.not_eq_true', and_assoc]
  constructor
  · rintro ⟨hregisters, hexception, hother⟩ k hk
    cases k with
    | none => trivial
    | registers => exact hregisters hk
    | exception => exact hexception hk
    | other => exact hother hk
  · intro h
    exact ⟨h .registers, h .exception, h .other⟩

/-- `STATUS.KIND` tells the four kinds apart (R15). -/
theorem kind_eq_of_kindNumber_eq {k k' : Kind}
    (h : BitVec.ofNat 2 (kindNumber k) = BitVec.ofNat 2 (kindNumber k')) : k = k' := by
  revert h
  cases k <;> cases k' <;> decide

theorem Csrs.kindDescribed_of_agreesWithKind {p : Params} {c : Csrs} {k : Kind}
    (hk : statusKind c.status = BitVec.ofNat 2 (kindNumber k)) (h : c.AgreesWithKind p k) :
    c.kindDescribed p = true := by
  refine (Csrs.kindDescribed_iff p c).2 fun k' hk' => ?_
  obtain rfl : k = k' := kind_eq_of_kindNumber_eq (hk.symm.trans hk')
  exact h

theorem Csrs.kindDescribed_of_statusKind_zero (p : Params) {c : Csrs} (h : statusKind c.status = 0) :
    c.kindDescribed p = true :=
  Csrs.kindDescribed_of_agreesWithKind (k := .none) h trivial

/-! What an update of the CSRs keeps. -/

theorem stickyCovers_or {st : Byte} {sticky : BitVec 9} (h : stickyCovers st sticky = true) (more : BitVec 9) :
    stickyCovers st (sticky ||| more) = true := by
  obtain ⟨herr, hkind⟩ := (stickyCovers_iff _ _).1 h
  exact (stickyCovers_iff _ _).2 ⟨fun hne => by simp [herr hne], fun hex => by simp [hkind hex]⟩

/-- Every CSR 0 is a legal report: the successful end of a NOP, whose opcode is 0 (R36, R61). -/
theorem Csrs.reportInv_reset (p : Params) : Csrs.reset.ReportInv p where
  legal := by decide
  covered := by decide
  command := by decide
  kind := Csrs.kindDescribed_of_statusKind_zero p (by decide)
  results := (Csrs.resultsWithin_iff _ _).2 ⟨Nat.zero_le _, Nat.zero_le _, Nat.zero_le _⟩

theorem Csrs.ReportInv.setSticky_or {p : Params} {c : Csrs} (h : c.ReportInv p) (more : BitVec 9) :
    ({ c with sticky := c.sticky ||| more } : Csrs).ReportInv p :=
  { h with covered := stickyCovers_or h.covered more }

/-- A host store reaches only operand registers, of which no report speaks (R44). -/
theorem Csrs.ReportInv.store {p : Params} {c c' : Csrs} (h : c.ReportInv p) {v : Dword} {r : CsrName}
    (hc' : c.store v r = some c') : c'.ReportInv p := by
  cases r <;> cases hc' <;> exact { h with }

/-! ### How a command ends -/

theorem statusLegal_statusOfError (e : ErrorCode) : statusLegal (statusOfError e) = true := by
  cases e <;> decide

theorem statusLegal_statusOfKind (k : Kind) : statusLegal (statusOfKind k) = true := by
  cases k <;> decide

theorem statusErr_statusOfError_eq_seven_iff (e : ErrorCode) :
    statusErr (statusOfError e) = 7 ↔ e = .illegalCmd := by
  cases e <;> decide

theorem getLsbD_stickyOfError (e : ErrorCode) :
    (stickyOfError e).getLsbD (statusErr (statusOfError e)).toNat = true := by
  cases e <;> decide

theorem stickyCovers_stickyAfterError (e : ErrorCode) (old : BitVec 9) :
    stickyCovers (statusOfError e) (stickyAfterError e old) = true := by
  refine (stickyCovers_iff _ _).2 ⟨fun _ => ?_, fun hex => ?_⟩
  · simp only [stickyAfterError, BitVec.getLsbD_or, getLsbD_stickyOfError, Bool.or_true]
  · rw [statusKind_statusOfError] at hex
    exact absurd hex (by decide)

theorem stickyCovers_stickyAfterKind (k : Kind) (old : BitVec 9) :
    stickyCovers (statusOfKind k) (stickyAfterKind k old) = true := by
  refine (stickyCovers_iff _ _).2 ⟨fun herr => absurd (statusErr_statusOfKind k) herr, fun hex => ?_⟩
  rw [statusKind_statusOfKind] at hex
  cases k with
  | exception => simp [stickyAfterKind, stickyExc]
  | none => exact absurd hex (by decide)
  | registers => exact absurd hex (by decide)
  | other => exact absurd hex (by decide)

/-- An error end keeps the invariant when ILLEGAL_CMD is the error of exactly the reserved words (R63, R163, R167). -/
theorem State.Inv.failCommand {s t : State} (hs : s.Inv) {op : Byte} {e : ErrorCode}
    (hillegal : e = .illegalCmd ↔ (decode op).toOption.isNone = true) (h : failCommand op e s = .next t) : t.Inv := by
  obtain ⟨hst, hrep⟩ := (State.inv_iff s).1 hs
  obtain rfl := failCommand_next h
  refine (State.inv_iff _).2 ⟨hst.setCsr _, ?_⟩
  exact {
    legal := statusLegal_statusOfError e
    covered := stickyCovers_stickyAfterError e _
    command := (Csrs.commandDescribed_iff _).2
      ⟨.inl (statusKind_statusOfError e), (statusErr_statusOfError_eq_seven_iff e).trans hillegal⟩
    kind := Csrs.kindDescribed_of_statusKind_zero _ (statusKind_statusOfError e)
    results := hrep.results }

/-- What the collected writes of a command must leave before its successful end with kind `k` (R162). -/
structure ReadyToComplete (i : Instr) (k : Kind) (s : State) : Prop where
  storage : s.StorageInv
  results : s.csr.resultsWithin s.params = true
  agrees : s.csr.AgreesWithKind s.params k
  parse : k = .none ∨ i = .parse

theorem readyToComplete_none {i : Instr} {s : State} (hst : s.StorageInv)
    (hresults : s.csr.resultsWithin s.params = true) : ReadyToComplete i .none s :=
  ⟨hst, hresults, trivial, .inl rfl⟩

/-- `CMD`, `STATUS` and `STICKY` are written after the results and do not bear on what these say. -/
theorem Csrs.agreesWithKind_setEnd {p : Params} {c : Csrs} {k : Kind} (h : c.AgreesWithKind p k) (op st : Byte)
    (sticky : BitVec 9) :
    ({ c with cmd := op, status := st, sticky := sticky } : Csrs).AgreesWithKind p k := by
  cases k <;> exact h

theorem ReadyToComplete.inv {i : Instr} {k : Kind} {s t : State} (hs : ReadyToComplete i k s)
    (h : completeCommand i k s = .next t) : t.Inv := by
  obtain rfl := completeCommand_next h
  have hcommand : statusKind (statusOfKind k) = 0 ∨ encode i = encode .parse := by
    rcases hs.parse with rfl | rfl
    · exact .inl (statusKind_statusOfKind .none)
    · exact .inr rfl
  refine (State.inv_iff _).2 ⟨hs.storage.setCsr _, ?_⟩
  exact {
    legal := statusLegal_statusOfKind k
    covered := stickyCovers_stickyAfterKind k _
    command := (Csrs.commandDescribed_iff _).2 ⟨hcommand, by simp [isNone_decode_encode]⟩
    kind := Csrs.kindDescribed_of_agreesWithKind (statusKind_statusOfKind k)
      (Csrs.agreesWithKind_setEnd hs.agrees _ _ _)
    results := hs.results }

end Sys2Proof.Machine
end

section
/-! Every command keeps the invariant: an error end writes no result, and the collected writes of a successful end stay
inside the buffers and report no more than these hold (R166). -/

namespace Sys2Proof.Machine

/-- A count narrowed to a register reports no more than the count. -/
theorem toNat_ofNat_le_of_le {w n bound : Nat} (h : n ≤ bound) : (BitVec.ofNat w n).toNat ≤ bound := by
  rw [BitVec.toNat_ofNat]
  exact (Nat.mod_le _ _).trans h

/-- A frame builder writes 8 bytes, which every `OB` has room for (R1, R110, R111). -/
theorem readyToComplete_buildFrame {s : State} (hs : s.Inv) (i : Instr) (function : Byte) :
    ReadyToComplete i .none (s.buildFrame function) := by
  obtain ⟨hst, hrep⟩ := (State.inv_iff s).1 hs
  obtain ⟨_, hrcnt, hreason⟩ := (Csrs.resultsWithin_iff _ _).1 hrep.results
  have hnb := Params.eight_le_nb hst.paramsWf
  exact readyToComplete_none ((hst.setOb (hst.ob.writeFrom_zero (by simpa using hnb))).setCsr _)
    ((Csrs.resultsWithin_iff _ _).2 ⟨hnb, hrcnt, hreason⟩)

/-- PARSE ends with an error or leaves the registers of the kind it reports (R115, R119, R120). -/
theorem execParse_readyToComplete {s : State} (hs : s.Inv) :
    (∃ e, e ≠ .illegalCmd ∧ exec .parse s = failCommand (encode .parse) e s) ∨
      ∃ k s', exec .parse s = completeCommand .parse k s' ∧ ReadyToComplete .parse k s' := by
  obtain ⟨hst, hrep⟩ := (State.inv_iff s).1 hs
  obtain ⟨hrlen, _, _⟩ := (Csrs.resultsWithin_iff _ _).1 hrep.results
  rcases execParse_cases s with hfail | ⟨_, _, _, hfunc, h⟩ | ⟨_, _, _, hfunc, _, _, h⟩ | ⟨_, _, _, hbit, hfunc, h⟩
  · exact .inl hfail
  · refine .inr ⟨.exception, _, h, hst.setCsr _, ?_, ⟨rfl, hfunc, rfl⟩, .inr rfl⟩
    exact (Csrs.resultsWithin_iff _ _).2 ⟨hrlen, Nat.zero_le _, excReason_le_nine hst.paramsWf _⟩
  · have hcount : (s.readIb 2).toNat / 2 ≤ Config.regCount := by
      have := (s.readIb 2).isLt
      unfold Config.regCount
      omega
    refine .inr ⟨.registers, _, h, (hst.setReg (hst.reg.writeFrom_zero ?_)).setCsr _, ?_,
      ⟨toNat_ofNat_le_of_le hcount, hfunc, rfl, rfl⟩, .inr rfl⟩
    · simpa using hcount
    · exact (Csrs.resultsWithin_iff _ _).2
        ⟨hrlen, toNat_ofNat_le_of_le (hcount.trans (Nat.le_max_right _ _)), Nat.zero_le _⟩
  · refine .inr ⟨.other, _, h, hst.setCsr _, ?_, ⟨rfl, rfl, rfl, hbit, hfunc⟩, .inr rfl⟩
    exact (Csrs.resultsWithin_iff _ _).2 ⟨hrlen, Nat.zero_le _, Nat.zero_le _⟩

/-- From a state with the invariant, any command but SRESET ends with an error of its own or with writes that are ready
for its successful end. -/
theorem exec_readyToComplete {s : State} (hs : s.Inv) (i : Instr) (hi : i ≠ .sreset) :
    (∃ e, e ≠ .illegalCmd ∧ exec i s = failCommand (encode i) e s) ∨
      ∃ k s', exec i s = completeCommand i k s' ∧ ReadyToComplete i k s' := by
  obtain ⟨hst, hrep⟩ := (State.inv_iff s).1 hs
  obtain ⟨hrlen, hrcnt, hreason⟩ := (Csrs.resultsWithin_iff _ _).1 hrep.results
  cases i with
  | sreset => exact absurd rfl hi
  | nop => exact .inr ⟨_, _, execNop_cases s, readyToComplete_none hst hrep.results⟩
  | clrs => exact .inr ⟨_, _, execClrs_cases s, readyToComplete_none (hst.setCsr _) hrep.results⟩
  | zzenc => exact .inr ⟨_, _, execZzenc_cases s, readyToComplete_none (hst.setCsr _) hrep.results⟩
  | zzdec => exact .inr ⟨_, _, execZzdec_cases s, readyToComplete_none (hst.setCsr _) hrep.results⟩
  | bldrd => exact .inr ⟨_, _, execBldrd_cases s, readyToComplete_buildFrame hs _ _⟩
  | bldwr => exact .inr ⟨_, _, execBldwr_cases s, readyToComplete_buildFrame hs _ _⟩
  | parse => exact execParse_readyToComplete hs
  | venc =>
    have hlen : (varint s.csr.val).length ≤ s.params.nb := by
      have := Params.eight_le_nb hst.paramsWf
      have := (length_varint s.csr.val).2
      omega
    exact .inr ⟨_, _, execVenc_cases s, readyToComplete_none ((hst.setOb (hst.ob.writeFrom_zero hlen)).setCsr _)
      ((Csrs.resultsWithin_iff _ _).2 ⟨toNat_ofNat_le_of_le hlen, hrcnt, hreason⟩)⟩
  | crc16 =>
    rcases execCrc16_cases s with hfail | ⟨_, h⟩
    · exact .inl hfail
    · exact .inr ⟨_, _, h, readyToComplete_none (hst.setCsr _) hrep.results⟩
  | crcapp =>
    rcases execCrcapp_cases s with hfail | ⟨hlen, h⟩
    · exact .inl hfail
    · exact .inr ⟨_, _, h, readyToComplete_none ((hst.setOb (hst.ob.writeFrom_zero (by simpa using hlen))).setCsr _)
        ((Csrs.resultsWithin_iff _ _).2 ⟨toNat_ofNat_le_of_le hlen, hrcnt, hreason⟩)⟩
  | crcvfy =>
    rcases execCrcvfy_cases s with hfail | ⟨_, _, _, h⟩
    · exact .inl hfail
    · exact .inr ⟨_, _, h, readyToComplete_none (hst.setCsr _) hrep.results⟩
  | denc =>
    rcases execDenc_cases s with hfail | ⟨deltas, hcnt, henc, h⟩
    · exact .inl hfail
    · have hlen : deltas.length ≤ s.params.nw := by simpa [length_of_deltaEncode henc] using hcnt
      exact .inr ⟨_, _, h, readyToComplete_none ((hst.setDlt (hst.dlt.writeFrom_zero hlen)).setCsr _)
        ((Csrs.resultsWithin_iff _ _).2 ⟨hrlen, toNat_ofNat_le_of_le (le_max_of_le_left hcnt), hreason⟩)⟩
  | ddec =>
    rcases execDdec_cases s with hfail | ⟨hcnt, h⟩
    · exact .inl hfail
    · exact .inr ⟨_, _, h, readyToComplete_none ((hst.setSer (hst.ser.writeFrom_zero (by simpa using hcnt))).setCsr _)
        ((Csrs.resultsWithin_iff _ _).2 ⟨hrlen, toNat_ofNat_le_of_le (le_max_of_le_left hcnt), hreason⟩)⟩
  | vdec =>
    rcases execVdec_cases s with hfail | ⟨v, newOff, hlen, hdec, h⟩
    · exact .inl hfail
    · have htaken : newOff - s.offOperand ≤ s.params.nb := by
        have := varintDecode_end hdec
        simp only [State.length_ibBytes] at this
        omega
      exact .inr ⟨_, _, h, readyToComplete_none (hst.setCsr _)
        ((Csrs.resultsWithin_iff _ _).2 ⟨toNat_ofNat_le_of_le htaken, hrcnt, hreason⟩)⟩
  | pack =>
    rcases execPack_cases s with hfail | ⟨hcnt, hlen, h⟩
    · exact .inl hfail
    · exact .inr ⟨_, _, h, readyToComplete_none ((hst.setOb (hst.ob.writeFrom_zero hlen)).setCsr _)
        ((Csrs.resultsWithin_iff _ _).2
          ⟨toNat_ofNat_le_of_le hlen, toNat_ofNat_le_of_le (le_max_of_le_left hcnt), hreason⟩)⟩
  | unpack =>
    rcases execUnpack_cases s with hfail | ⟨deltas, hlen, _, hcnt, h⟩
    · exact .inl hfail
    · exact .inr ⟨_, _, h, readyToComplete_none ((hst.setDlt (hst.dlt.writeFrom_zero hcnt)).setCsr _)
        ((Csrs.resultsWithin_iff _ _).2
          ⟨toNat_ofNat_le_of_le hlen, toNat_ofNat_le_of_le (le_max_of_le_left hcnt), hreason⟩)⟩

/-- Every command keeps the invariant. -/
theorem State.Inv.exec {s t : State} (hs : s.Inv) {i : Instr} (h : exec i s = .next t) : t.Inv := by
  by_cases hi : i = .sreset
  · subst hi
    obtain ⟨hst, _⟩ := (State.inv_iff s).1 hs
    rw [execSreset_cases] at h
    cases h
    exact (State.inv_iff _).2 ⟨hst.setCsr _, Csrs.reportInv_reset _⟩
  · rcases exec_readyToComplete hs i hi with ⟨e, he, hfail⟩ | ⟨k, s', hdone, hready⟩
    · exact hs.failCommand (by simp [he, isNone_decode_encode]) (hfail ▸ h)
    · exact hready.inv (hdone ▸ h)

/-- A write of a command word keeps the invariant, reserved words included (R63, R167). -/
theorem State.Inv.runCommand {s t : State} (hs : s.Inv) {op : Byte} (h : runCommand op s = .next t) : t.Inv := by
  cases hop : decode op with
  | ok i => exact hs.exec (runCommand_of_decode_ok s hop ▸ h)
  | error e => exact hs.failCommand (by simp [hop, Except.toOption]) (runCommand_of_decode_error s hop ▸ h)

end Sys2Proof.Machine
end

section
/-! Every event of the host's order keeps the invariant (R43 to R45, R50, R181). -/

namespace Sys2Proof.Machine

theorem State.Inv.setScript {s : State} (hs : s.Inv) (es : Script) : (s.setScript es).Inv := { hs with }

theorem State.Inv.refuseAccess {s : State} (hs : s.Inv) : (refuseAccess s).Inv := by
  obtain ⟨hst, hrep⟩ := (State.inv_iff s).1 hs
  exact (State.inv_iff _).2 ⟨hst.setCsr _, hrep.setSticky_or stickyAccess⟩

theorem State.Inv.externalReset {s : State} (hs : s.Inv) : (externalReset s).Inv := by
  obtain ⟨hst, _⟩ := (State.inv_iff s).1 hs
  exact (State.inv_iff _).2 ⟨hst.externalReset, Csrs.reportInv_reset _⟩

theorem State.Inv.hostRead {s : State} (hs : s.Inv) (space index : Nat) : (hostRead space index s).Inv := by
  cases hloc : decodeLocation s.params space index with
  | some loc =>
    rw [hostRead_of_location hloc]
    exact { hs with }
  | none =>
    rw [hostRead_refused hloc]
    obtain ⟨hst, hrep⟩ := (State.inv_iff _).1 hs.refuseAccess
    exact (State.inv_iff _).2 ⟨(hst.pushReturned _).nextDraw, hrep⟩

/-- A store to an existing location keeps the invariant (R44). -/
theorem State.Inv.store {s t : State} (hs : s.Inv) {v : Dword} {loc : Location}
    (hloc : ∀ b i, loc = .element b i → i < bufferSize s.params b) (h : s.store v loc = some t) : t.Inv := by
  obtain ⟨hst, hrep⟩ := (State.inv_iff s).1 hs
  cases loc with
  | csr name =>
    obtain ⟨c, hc, rfl⟩ := Option.map_eq_some_iff.1 h
    exact (State.inv_iff _).2 ⟨hst.setCsr c, hrep.store hc⟩
  | element b i =>
    have hi := hloc b i rfl
    cases b with
    | ib => cases h; exact (State.inv_iff _).2 ⟨hst.setIb (hst.ib.write hi _), hrep⟩
    | ob => cases h; exact (State.inv_iff _).2 ⟨hst.setOb (hst.ob.write hi _), hrep⟩
    | ser => cases h; exact (State.inv_iff _).2 ⟨hst.setSer (hst.ser.write hi _), hrep⟩
    | dlt => cases h; exact (State.inv_iff _).2 ⟨hst.setDlt (hst.dlt.write hi _), hrep⟩
    | reg => cases h; exact (State.inv_iff _).2 ⟨hst.setReg (hst.reg.write hi _), hrep⟩

/-- A write to an existing location runs a command, stores, or is refused; each keeps the invariant. -/
theorem State.Inv.writeLocation {s t : State} (hs : s.Inv) {v : Dword} {loc : Location}
    (hloc : ∀ b i, loc = .element b i → i < bufferSize s.params b) (h : writeLocation loc v s = .next t) : t.Inv := by
  by_cases hcmd : loc = .csr .cmd
  · subst hcmd
    exact hs.runCommand (writeLocation_cmd v s ▸ h)
  · rw [writeLocation_of_ne_cmd v s hcmd] at h
    cases h
    cases hstore : s.store v loc with
    | none => exact hs.refuseAccess
    | some t => exact hs.store hloc hstore

theorem State.Inv.hostWrite {s t : State} (hs : s.Inv) {space index : Nat} {v : Dword}
    (h : hostWrite space index v s = .next t) : t.Inv := by
  cases hdec : decodeLocation s.params space index with
  | none =>
    rw [hostWrite_refused hdec] at h
    cases h
    exact hs.refuseAccess
  | some loc =>
    rw [hostWrite_of_location hdec] at h
    refine hs.writeLocation (fun b i hloc => ?_) h
    subst hloc
    obtain ⟨_, _, hi⟩ := decodeLocation_eq_element hdec
    exact hi

theorem State.Inv.applyEvent {s t : State} (hs : s.Inv) {e : HostEvent} (h : applyEvent e s = .next t) : t.Inv := by
  cases e with
  | read space index => cases h; exact hs.hostRead space index
  | write space index v => exact hs.hostWrite h
  | reset => cases h; exact hs.externalReset

/-- Settles O11, along the step: no event or the first one, a read, a write or a reset; a write of `CMD` runs a command,
which ends with an error or with its collected writes. -/
theorem everyStepKeepsTheInvariant : Obligations.EveryStepKeepsTheInvariant := by
  intro s t hs h
  cases hscript : s.script with
  | nil =>
    rw [step_of_script_nil hscript] at h
    cases h
    exact hs
  | cons e rest =>
    rw [step_of_script_cons hscript] at h
    exact (hs.setScript rest).applyEvent h

end Sys2Proof.Machine
end


section
/-! Two states with the same inputs (R38): what the operands, checks and input ranges of one are in the other, and how
the two ends of a command compare. -/

namespace Sys2Proof.Machine

/-! ### The same inputs -/

theorem State.lenOperand_le_nb {s : State} (h : ¬ s.lenTooLarge = true) : s.lenOperand ≤ s.params.nb := by
  simpa [State.lenTooLarge] using h

theorem State.cntOperand_le_nw {s : State} (h : ¬ s.cntTooLarge = true) : s.cntOperand ≤ s.params.nw := by
  simpa [State.cntTooLarge] using h

namespace sameInputs

variable {s s' : State}

theorem params_eq (h : sameInputs s s') : s.params = s'.params := h.1

theorem csr_eq (h : sameInputs s s') : s.csr = s'.csr := h.2.1

theorem lenOperand_eq (h : sameInputs s s') : s.lenOperand = s'.lenOperand := by
  simp only [State.lenOperand, h.csr_eq]

theorem cntOperand_eq (h : sameInputs s s') : s.cntOperand = s'.cntOperand := by
  simp only [State.cntOperand, h.csr_eq]

theorem offOperand_eq (h : sameInputs s s') : s.offOperand = s'.offOperand := by
  simp only [State.offOperand, h.csr_eq]

theorem lenTooLarge_eq (h : sameInputs s s') : s.lenTooLarge = s'.lenTooLarge := by
  simp only [State.lenTooLarge, h.params_eq, h.lenOperand_eq]

theorem cntTooLarge_eq (h : sameInputs s s') : s.cntTooLarge = s'.cntTooLarge := by
  simp only [State.cntTooLarge, h.params_eq, h.cntOperand_eq]

/-- A byte before `LEN`, when `LEN` fits the buffer. -/
theorem readIb_eq (h : sameInputs s s') (hfit : s.lenOperand ≤ s.params.nb) {k : Nat} (hk : k < s.lenOperand) :
    s.readIb k = s'.readIb k := by
  obtain ⟨_, _, hib, _, _⟩ := h
  exact hib k hk (hk.trans_le hfit)

theorem ibBytes_eq (h : sameInputs s s') (hfit : s.lenOperand ≤ s.params.nb) {n : Nat} (hn : n ≤ s.lenOperand) :
    s.ibBytes n = s'.ibBytes n :=
  State.ibBytes_congr fun _ hk => h.readIb_eq hfit (hk.trans_le hn)

theorem serElements_eq (h : sameInputs s s') (hfit : s.cntOperand ≤ s.params.nw) :
    s.serElements s.cntOperand = s'.serElements s.cntOperand := by
  obtain ⟨_, _, _, hser, _⟩ := h
  exact State.serElements_congr fun k hk => hser k hk (hk.trans_le hfit)

theorem dltElements_eq (h : sameInputs s s') (hfit : s.cntOperand ≤ s.params.nw) :
    s.dltElements s.cntOperand = s'.dltElements s.cntOperand := by
  obtain ⟨_, _, _, _, hdlt⟩ := h
  exact State.dltElements_congr fun k hk => hdlt k hk (hk.trans_le hfit)

theorem frameCrc_eq (h : sameInputs s s') (hfit : s.lenOperand ≤ s.params.nb) :
    s.frameCrc s.lenOperand = s'.frameCrc s.lenOperand := by
  simp only [State.frameCrc, h.ibBytes_eq hfit (Nat.sub_le _ _)]

theorem crcMatches_eq (h : sameInputs s s') (hfit : s.lenOperand ≤ s.params.nb) (htwo : 2 ≤ s.lenOperand) :
    s.crcMatches s.lenOperand = s'.crcMatches s.lenOperand := by
  have hlo := h.readIb_eq hfit (k := s.lenOperand - 2) (by omega)
  have hhi := h.readIb_eq hfit (k := s.lenOperand - 1) (by omega)
  simp only [State.crcMatches, hlo, hhi, h.frameCrc_eq hfit]

/-- The registers of a read response whose byte count is that of its frame (R119). -/
theorem responseRegisters_eq (h : sameInputs s s') (hfit : s.lenOperand ≤ s.params.nb) {count : Nat}
    (hcount : 5 + count ≤ s.lenOperand) :
    (List.range (count / 2)).map s.responseRegister = (List.range (count / 2)).map s'.responseRegister := by
  refine List.map_congr_left fun k hk => ?_
  have hk := List.mem_range.1 hk
  have hhi := h.readIb_eq hfit (k := 3 + 2 * k) (by omega)
  have hlo := h.readIb_eq hfit (k := 4 + 2 * k) (by omega)
  simp only [State.responseRegister, hhi, hlo]

/-- `REG` is the input of no command (R62). -/
theorem setReg (h : sameInputs s s') (m m' : Memory 16) : sameInputs (s.setReg m) (s'.setReg m') := h

end sameInputs

/-! ### The same results -/

/-- Two answers to the command `i` agree in every CSR and, without error, in every element written. -/
def SameResults (i : Instr) (a a' : Answer) : Prop :=
  ∀ t t', a = .next t → a' = .next t' →
    t.csr = t'.csr ∧
      (statusErr t.csr.status = 0 → ∀ b k, outputBuffer i = some b → k < writtenCount b t →
        t.load (.element b k) = t'.load (.element b k))

theorem sameResults_failCommand (i : Instr) {op : Byte} {e : ErrorCode} {s s' : State} (hcsr : s.csr = s'.csr) :
    SameResults i (failCommand op e s) (failCommand op e s') := by
  intro t t' ht ht'
  obtain rfl := failCommand_next ht
  obtain rfl := failCommand_next ht'
  exact ⟨by simp [hcsr], fun herr => absurd herr (statusErr_statusOfError_ne_zero e)⟩

/-- The end writes CSRs only, so the elements written are those of the collected writes. -/
theorem sameResults_completeCommand {i : Instr} {k : Kind} {u u' : State} (hcsr : u.csr = u'.csr)
    (hload : ∀ b n, outputBuffer i = some b → n < writtenCount b u → u.load (.element b n) = u'.load (.element b n)) :
    SameResults i (completeCommand i k u) (completeCommand i k u') := by
  intro t t' ht ht'
  obtain rfl := completeCommand_next ht
  obtain rfl := completeCommand_next ht'
  refine ⟨by simp [hcsr], fun _ b n hb hn => ?_⟩
  cases b <;> exact hload _ n hb hn

theorem sameResults_of_no_output {i : Instr} {k : Kind} {u u' : State} (hi : outputBuffer i = none)
    (hcsr : u.csr = u'.csr) : SameResults i (completeCommand i k u) (completeCommand i k u') :=
  sameResults_completeCommand hcsr fun b _ hb => by simp [hi] at hb

/-- A command whose collected writes leave the same `count` values in both output buffers and report no more. -/
theorem sameResults_of_output {i : Instr} {k : Kind} {b : BufferName} {u u' : State} {count : Nat}
    {values : Nat → Dword} (hi : outputBuffer i = some b) (hcsr : u.csr = u'.csr) (hcount : writtenCount b u ≤ count)
    (hu : ∀ n, n < count → u.load (.element b n) = values n)
    (hu' : ∀ n, n < count → u'.load (.element b n) = values n) :
    SameResults i (completeCommand i k u) (completeCommand i k u') := by
  refine sameResults_completeCommand hcsr fun b' n hb' hn => ?_
  obtain rfl : b = b' := Option.some.inj (hi.symm.trans hb')
  have hlt := hn.trans_le hcount
  exact (hu n hlt).trans (hu' n hlt).symm

/-! ### Elements written -/

theorem load_ob_of_written (s : State) {vs : List Byte} (c : Csrs) {k : Nat} (hk : k < vs.length) :
    ((s.setOb (s.ob.writeFrom 0 vs)).setCsr c).load (.element .ob k) = (vs.getD k 0).setWidth 64 := by
  simp only [State.load, State.readOb_setCsr, State.readOb_setOb_writeFrom, if_pos hk]

theorem load_ser_of_written (s : State) {vs : List Dword} (c : Csrs) {k : Nat} (hk : k < vs.length) :
    ((s.setSer (s.ser.writeFrom 0 vs)).setCsr c).load (.element .ser k) = vs.getD k 0 := by
  simp only [State.load, State.readSer_setCsr, State.readSer_setSer_writeFrom, if_pos hk]

theorem load_dlt_of_written (s : State) {vs : List Word} (c : Csrs) {k : Nat} (hk : k < vs.length) :
    ((s.setDlt (s.dlt.writeFrom 0 vs)).setCsr c).load (.element .dlt k) = (vs.getD k 0).setWidth 64 := by
  simp only [State.load, State.readDlt_setCsr, State.readDlt_setDlt_writeFrom, if_pos hk]

theorem load_reg_of_written (s : State) {vs : List Half} (c : Csrs) {k : Nat} (hk : k < vs.length) :
    ((s.setReg (s.reg.writeFrom 0 vs)).setCsr c).load (.element .reg k) = (vs.getD k 0).setWidth 64 := by
  simp only [State.load, State.readReg_setCsr, State.readReg_setReg_writeFrom, if_pos hk]

end Sys2Proof.Machine
end

section
/-! Every command gives two states with the same inputs the same results (R38, R98). The tests that choose an end read
inputs only, so both runs take the same branch. -/

namespace Sys2Proof.Machine

variable {s s' : State}

/-! ### CRC unit -/

theorem sameResults_crc16 (h : sameInputs s s') : SameResults .crc16 (exec .crc16 s) (exec .crc16 s') := by
  simp only [exec, execCrc16, ← h.lenTooLarge_eq, ← h.lenOperand_eq, ← h.csr_eq]
  split
  · exact sameResults_failCommand _ h.csr_eq
  next hlen =>
    have hfit := State.lenOperand_le_nb hlen
    rw [← h.ibBytes_eq hfit le_rfl]
    exact sameResults_of_no_output rfl rfl

theorem sameResults_crcapp (h : sameInputs s s') : SameResults .crcapp (exec .crcapp s) (exec .crcapp s') := by
  simp only [exec, execCrcapp, ← h.lenOperand_eq, ← h.params_eq, ← h.csr_eq]
  split
  · exact sameResults_failCommand _ h.csr_eq
  next hlen =>
    rw [← h.ibBytes_eq (by omega) le_rfl]
    exact sameResults_of_output rfl rfl (toNat_ofNat_le_of_le (by simp))
      (fun _ => load_ob_of_written s _) (fun _ => load_ob_of_written s' _)

theorem sameResults_crcvfy (h : sameInputs s s') : SameResults .crcvfy (exec .crcvfy s) (exec .crcvfy s') := by
  simp only [exec, execCrcvfy, ← h.lenTooLarge_eq, ← h.lenOperand_eq, ← h.csr_eq]
  split
  · exact sameResults_failCommand _ h.csr_eq
  next hlen =>
    have hfit := State.lenOperand_le_nb hlen
    split
    · exact sameResults_failCommand _ h.csr_eq
    next htwo =>
      rw [← h.crcMatches_eq hfit (Nat.not_lt.1 htwo), ← h.frameCrc_eq hfit]
      split
      · exact sameResults_of_no_output rfl rfl
      · exact sameResults_failCommand _ h.csr_eq

/-! ### FRAME unit -/

theorem sameResults_buildFrame {i : Instr} (hi : outputBuffer i = some .ob) (h : sameInputs s s') (function : Byte) :
    SameResults i (completeCommand i .none (s.buildFrame function))
      (completeCommand i .none (s'.buildFrame function)) := by
  simp only [State.buildFrame, ← h.csr_eq]
  exact sameResults_of_output hi rfl (by simp [writtenCount])
    (fun _ => load_ob_of_written s _) (fun _ => load_ob_of_written s' _)

/-- What an accepted response reports; the elements of `REG` are the branch's affair. -/
theorem sameResults_acceptResponse (h : sameInputs s s') (hfit : s.lenOperand ≤ s.params.nb)
    (htwo : 2 ≤ s.lenOperand) {k : Kind} {count : Nat} {code : Byte} {reason : BitVec 4}
    (hload : ∀ n, n < count → s.load (.element .reg n) = s'.load (.element .reg n)) :
    SameResults .parse (acceptResponse s.lenOperand k count code reason s)
      (acceptResponse s.lenOperand k count code reason s') := by
  simp only [acceptResponse, ← h.csr_eq, ← h.frameCrc_eq hfit, ← h.readIb_eq hfit (k := 0) (by omega),
    ← h.readIb_eq hfit (k := 1) (by omega)]
  refine sameResults_completeCommand rfl fun b n hb hn => ?_
  obtain rfl : BufferName.reg = b := Option.some.inj hb
  exact hload n (hn.trans_le (toNat_ofNat_le_of_le le_rfl))

theorem sameResults_parseException (h : sameInputs s s') (hfit : s.lenOperand ≤ s.params.nb) :
    SameResults .parse (parseException s.lenOperand s) (parseException s.lenOperand s') := by
  simp only [parseException, ← h.params_eq]
  split
  · exact sameResults_failCommand _ h.csr_eq
  next hfive =>
    rw [← h.readIb_eq hfit (k := 2) (by omega)]
    exact sameResults_acceptResponse h hfit (by omega) fun _ hn => absurd hn (Nat.not_lt_zero _)

theorem sameResults_parseRegisters (h : sameInputs s s') (hfit : s.lenOperand ≤ s.params.nb) :
    SameResults .parse (parseRegisters s.lenOperand s) (parseRegisters s.lenOperand s') := by
  simp only [parseRegisters]
  split
  · exact sameResults_failCommand _ h.csr_eq
  next hfive =>
    rw [← h.readIb_eq hfit (k := 2) (by omega)]
    split
    · exact sameResults_failCommand _ h.csr_eq
    next hcount =>
      split
      · exact sameResults_failCommand _ h.csr_eq
      · rw [← h.responseRegisters_eq hfit (by omega)]
        generalize hregs : (List.range ((s.readIb 2).toNat / 2)).map s.responseRegister = regs
        refine sameResults_acceptResponse (h.setReg (s.reg.writeFrom 0 regs) (s'.reg.writeFrom 0 regs)) hfit
          (show 2 ≤ s.lenOperand by omega) fun n hn => ?_
        have hlt : n < regs.length := by simpa [← hregs] using hn
        exact (load_reg_of_written s s.csr hlt).trans (load_reg_of_written s' s'.csr hlt).symm

theorem sameResults_parse (h : sameInputs s s') : SameResults .parse (exec .parse s) (exec .parse s') := by
  simp only [exec, execParse, ← h.lenTooLarge_eq, ← h.lenOperand_eq]
  split
  · exact sameResults_failCommand _ h.csr_eq
  next hlen =>
    have hfit := State.lenOperand_le_nb hlen
    split
    · exact sameResults_failCommand _ h.csr_eq
    next hfour =>
      rw [← h.crcMatches_eq hfit (by omega), ← h.readIb_eq hfit (k := 1) (by omega)]
      split
      · exact sameResults_failCommand _ h.csr_eq
      split
      · exact sameResults_parseException h hfit
      split
      · exact sameResults_parseRegisters h hfit
      · exact sameResults_acceptResponse h hfit (by omega) fun _ hn => absurd hn (Nat.not_lt_zero _)

/-! ### DELTA unit -/

theorem sameResults_denc (h : sameInputs s s') : SameResults .denc (exec .denc s) (exec .denc s') := by
  simp only [exec, execDenc, ← h.cntTooLarge_eq, ← h.cntOperand_eq, ← h.csr_eq]
  split
  · exact sameResults_failCommand _ h.csr_eq
  next hcnt =>
    rw [← h.serElements_eq (State.cntOperand_le_nw hcnt)]
    split
    · exact sameResults_failCommand _ h.csr_eq
    next deltas hdeltas =>
      exact sameResults_of_output rfl rfl (toNat_ofNat_le_of_le (by simp [length_of_deltaEncode hdeltas]))
        (fun _ => load_dlt_of_written s _) (fun _ => load_dlt_of_written s' _)

theorem sameResults_ddec (h : sameInputs s s') : SameResults .ddec (exec .ddec s) (exec .ddec s') := by
  simp only [exec, execDdec, ← h.cntTooLarge_eq, ← h.cntOperand_eq, ← h.csr_eq]
  split
  · exact sameResults_failCommand _ h.csr_eq
  next hcnt =>
    rw [← h.dltElements_eq (State.cntOperand_le_nw hcnt)]
    exact sameResults_of_output rfl rfl (toNat_ofNat_le_of_le (by simp))
      (fun _ => load_ser_of_written s _) (fun _ => load_ser_of_written s' _)

/-! ### VARINT unit -/

theorem sameResults_venc (h : sameInputs s s') : SameResults .venc (exec .venc s) (exec .venc s') := by
  simp only [execVenc_cases, ← h.csr_eq]
  exact sameResults_of_output rfl rfl (toNat_ofNat_le_of_le le_rfl)
    (fun _ => load_ob_of_written s _) (fun _ => load_ob_of_written s' _)

theorem sameResults_vdec (h : sameInputs s s') : SameResults .vdec (exec .vdec s) (exec .vdec s') := by
  simp only [exec, execVdec, ← h.lenTooLarge_eq, ← h.lenOperand_eq, ← h.offOperand_eq, ← h.csr_eq]
  split
  · exact sameResults_failCommand _ h.csr_eq
  next hlen =>
    rw [← h.ibBytes_eq (State.lenOperand_le_nb hlen) le_rfl]
    split
    · exact sameResults_failCommand _ h.csr_eq
    · exact sameResults_of_no_output rfl rfl

theorem sameResults_pack (h : sameInputs s s') : SameResults .pack (exec .pack s) (exec .pack s') := by
  simp only [exec, execPack, ← h.cntTooLarge_eq, ← h.cntOperand_eq, ← h.params_eq, ← h.csr_eq]
  split
  · exact sameResults_failCommand _ h.csr_eq
  next hcnt =>
    rw [← h.dltElements_eq (State.cntOperand_le_nw hcnt)]
    split
    · exact sameResults_failCommand _ h.csr_eq
    · exact sameResults_of_output rfl rfl (toNat_ofNat_le_of_le le_rfl)
        (fun _ => load_ob_of_written s _) (fun _ => load_ob_of_written s' _)

theorem sameResults_unpack (h : sameInputs s s') : SameResults .unpack (exec .unpack s) (exec .unpack s') := by
  simp only [exec, execUnpack, ← h.lenTooLarge_eq, ← h.lenOperand_eq, ← h.params_eq, ← h.csr_eq]
  split
  · exact sameResults_failCommand _ h.csr_eq
  next hlen =>
    rw [← h.ibBytes_eq (State.lenOperand_le_nb hlen) le_rfl]
    split
    · exact sameResults_failCommand _ h.csr_eq
    next deltas _ =>
      split
      · exact sameResults_failCommand _ h.csr_eq
      · exact sameResults_of_output rfl rfl (toNat_ofNat_le_of_le le_rfl)
          (fun _ => load_dlt_of_written s _) (fun _ => load_dlt_of_written s' _)

/-! ### SYS unit, and every command -/

theorem sameResults_sreset : SameResults .sreset (exec .sreset s) (exec .sreset s') := by
  intro t t' ht ht'
  cases ht
  cases ht'
  exact ⟨rfl, fun _ _ _ hb => nomatch hb⟩

theorem sameResults_exec (h : sameInputs s s') (i : Instr) : SameResults i (exec i s) (exec i s') := by
  cases i with
  | nop => exact sameResults_of_no_output rfl h.csr_eq
  | clrs => exact sameResults_of_no_output rfl (by simp [h.csr_eq])
  | sreset => exact sameResults_sreset
  | crc16 => exact sameResults_crc16 h
  | crcapp => exact sameResults_crcapp h
  | crcvfy => exact sameResults_crcvfy h
  | bldrd => exact sameResults_buildFrame rfl h 0x03
  | bldwr => exact sameResults_buildFrame rfl h 0x06
  | parse => exact sameResults_parse h
  | denc => exact sameResults_denc h
  | ddec => exact sameResults_ddec h
  | zzenc => exact sameResults_of_no_output rfl (by simp [h.csr_eq])
  | zzdec => exact sameResults_of_no_output rfl (by simp [h.csr_eq])
  | venc => exact sameResults_venc h
  | vdec => exact sameResults_vdec h
  | pack => exact sameResults_pack h
  | unpack => exact sameResults_unpack h

/-- Settles O17, command by command: both runs take the same branch, and what a command writes is computed from its
inputs. -/
theorem resultsDependOnlyOnInputs : Obligations.ResultsDependOnlyOnInputs :=
  fun i _ _ t t' h => sameResults_exec h i t t'

end Sys2Proof.Machine
end

section
/-! What a command may write among the CSRs (R13), and what it leaves of `STICKY` (R16) and of the draws (R37). -/

namespace Sys2Proof.Machine

/-! ### Registers -/

/-- The registers `c'` of a command's collected writes, cut down to `STICKY` and the registers named by `names`; the
others are those of `c`. -/
def Csrs.writtenIn (names : CsrName → Bool) (c c' : Csrs) : Csrs where
  cmd := c.cmd
  status := c.status
  sticky := c'.sticky
  slave := if names .slave then c'.slave else c.slave
  addr := if names .addr then c'.addr else c.addr
  data := if names .data then c'.data else c.data
  len := if names .len then c'.len else c.len
  cnt := if names .cnt then c'.cnt else c.cnt
  off := if names .off then c'.off else c.off
  val := if names .val then c'.val else c.val
  crc := if names .crc then c'.crc else c.crc
  rlen := if names .rlen then c'.rlen else c.rlen
  rcnt := if names .rcnt then c'.rcnt else c.rcnt
  raddr := if names .raddr then c'.raddr else c.raddr
  rfunc := if names .rfunc then c'.rfunc else c.rfunc
  exc := if names .exc then c'.exc else c.exc
  reason := if names .reason then c'.reason else c.reason

theorem Csrs.load_writtenIn {names : CsrName → Bool} (c c' : Csrs) {r : CsrName} (hr : r ≠ .sticky)
    (hname : names r = false) : (Csrs.writtenIn names c c').load r = c.load r := by
  cases r with
  | sticky => exact absurd rfl hr
  | cmd => rfl
  | status => rfl
  | _ => simp [Csrs.writtenIn, Csrs.load, hname]

/-- The end of a command writes `CMD`, `STATUS` and `STICKY` only (R162, R163). -/
theorem Csrs.load_setEnd (c : Csrs) (op st : Byte) (sticky : BitVec 9) {r : CsrName} (hcmd : r ≠ .cmd)
    (hstatus : r ≠ .status) (hsticky : r ≠ .sticky) :
    ({ c with cmd := op, status := st, sticky := sticky } : Csrs).load r = c.load r := by
  cases r with
  | cmd => exact absurd rfl hcmd
  | status => exact absurd rfl hstatus
  | sticky => exact absurd rfl hsticky
  | _ => rfl

/-- A command but SRESET ends with an error, or has collected its writes in the registers that the column 'engine writes
it in' names for it (R13). -/
theorem exec_writes_named (i : Instr) (s : State) (hi : i ≠ .sreset) :
    (∃ e, exec i s = failCommand (encode i) e s) ∨
      ∃ k s', exec i s = completeCommand i k s' ∧ s'.csr = Csrs.writtenIn (writesResult i) s.csr s'.csr := by
  cases i with
  | sreset => exact absurd rfl hi
  | nop => exact .inr ⟨_, _, execNop_cases s, rfl⟩
  | clrs => exact .inr ⟨_, _, execClrs_cases s, rfl⟩
  | bldrd => exact .inr ⟨_, _, execBldrd_cases s, rfl⟩
  | bldwr => exact .inr ⟨_, _, execBldwr_cases s, rfl⟩
  | zzenc => exact .inr ⟨_, _, execZzenc_cases s, rfl⟩
  | zzdec => exact .inr ⟨_, _, execZzdec_cases s, rfl⟩
  | venc => exact .inr ⟨_, _, execVenc_cases s, rfl⟩
  | crc16 =>
    rcases execCrc16_cases s with ⟨e, _, hfail⟩ | ⟨_, h⟩
    · exact .inl ⟨e, hfail⟩
    · exact .inr ⟨_, _, h, rfl⟩
  | crcapp =>
    rcases execCrcapp_cases s with ⟨e, _, hfail⟩ | ⟨_, h⟩
    · exact .inl ⟨e, hfail⟩
    · exact .inr ⟨_, _, h, rfl⟩
  | crcvfy =>
    rcases execCrcvfy_cases s with ⟨e, _, hfail⟩ | ⟨_, _, _, h⟩
    · exact .inl ⟨e, hfail⟩
    · exact .inr ⟨_, _, h, rfl⟩
  | parse =>
    rcases execParse_cases s with ⟨e, _, hfail⟩ | ⟨_, _, _, _, h⟩ | ⟨_, _, _, _, _, _, h⟩ | ⟨_, _, _, _, _, h⟩
    · exact .inl ⟨e, hfail⟩
    · exact .inr ⟨_, _, h, rfl⟩
    · exact .inr ⟨_, _, h, rfl⟩
    · exact .inr ⟨_, _, h, rfl⟩
  | denc =>
    rcases execDenc_cases s with ⟨e, _, hfail⟩ | ⟨_, _, _, h⟩
    · exact .inl ⟨e, hfail⟩
    · exact .inr ⟨_, _, h, rfl⟩
  | ddec =>
    rcases execDdec_cases s with ⟨e, _, hfail⟩ | ⟨_, h⟩
    · exact .inl ⟨e, hfail⟩
    · exact .inr ⟨_, _, h, rfl⟩
  | vdec =>
    rcases execVdec_cases s with ⟨e, _, hfail⟩ | ⟨_, _, _, _, h⟩
    · exact .inl ⟨e, hfail⟩
    · exact .inr ⟨_, _, h, rfl⟩
  | pack =>
    rcases execPack_cases s with ⟨e, _, hfail⟩ | ⟨_, _, h⟩
    · exact .inl ⟨e, hfail⟩
    · exact .inr ⟨_, _, h, rfl⟩
  | unpack =>
    rcases execUnpack_cases s with ⟨e, _, hfail⟩ | ⟨_, _, _, _, h⟩
    · exact .inl ⟨e, hfail⟩
    · exact .inr ⟨_, _, h, rfl⟩

/-- Settles O15: an error end writes no result, a successful end keeps what the collected writes left, and SRESET is
named by every register. -/
theorem commandsWriteOnlyTheirRegisters : Obligations.CommandsWriteOnlyTheirRegisters := by
  intro i s t r h hcmd hstatus hsticky hname
  have hi : i ≠ .sreset := by
    rintro rfl
    cases hname
  rcases exec_writes_named i s hi with ⟨e, hfail⟩ | ⟨k, s', hdone, hwritten⟩
  · obtain rfl := failCommand_next (hfail ▸ h)
    exact Csrs.load_setEnd _ _ _ _ hcmd hstatus hsticky
  · obtain rfl := completeCommand_next (hdone ▸ h)
    calc _ = s'.csr.load r := Csrs.load_setEnd _ _ _ _ hcmd hstatus hsticky
      _ = s.csr.load r := by rw [hwritten, Csrs.load_writtenIn _ _ hsticky hname]

/-! ### Sticky bits -/

/-- Every bit set in `STICKY` stays set. -/
def State.KeepsSticky (s t : State) : Prop :=
  ∀ n, s.csr.sticky.getLsbD n = true → t.csr.sticky.getLsbD n = true

theorem State.KeepsSticky.of_eq {s t : State} (h : t.csr.sticky = s.csr.sticky) : s.KeepsSticky t :=
  fun _ hn => h ▸ hn

theorem State.KeepsSticky.of_or {s t : State} {more : BitVec 9} (h : t.csr.sticky = s.csr.sticky ||| more) :
    s.KeepsSticky t :=
  fun _ hn => by simp [h, hn]

theorem keepsSticky_failCommand {op : Byte} {e : ErrorCode} {s t : State} (h : failCommand op e s = .next t) :
    s.KeepsSticky t := by
  obtain rfl := failCommand_next h
  exact .of_or rfl

theorem keepsSticky_completeCommand {i : Instr} {k : Kind} {s t : State} (h : completeCommand i k s = .next t) :
    s.KeepsSticky t := by
  obtain rfl := completeCommand_next h
  cases k with
  | exception => exact .of_or rfl
  | none => exact .of_eq rfl
  | registers => exact .of_eq rfl
  | other => exact .of_eq rfl

/-- Only CLRS and SRESET clear sticky bits (R16, R94, R95). -/
theorem keepsSticky_exec {i : Instr} (hclrs : i ≠ .clrs) (hsreset : i ≠ .sreset) {s t : State}
    (h : exec i s = .next t) : s.KeepsSticky t := by
  rcases exec_ends i s hsreset with ⟨_, _, hfail⟩ | ⟨k, s', hdone, _, hsticky, _⟩
  · exact keepsSticky_failCommand (hfail ▸ h)
  · rw [if_neg hclrs] at hsticky
    intro n hn
    exact keepsSticky_completeCommand (hdone ▸ h) n (hsticky ▸ hn)

theorem keepsSticky_runCommand {op : Byte} (hop : op ≠ 0x01#8 ∧ op ≠ 0x02#8) {s t : State}
    (h : runCommand op s = .next t) : s.KeepsSticky t := by
  cases hdec : decode op with
  | error e => exact keepsSticky_failCommand (runCommand_of_decode_error s hdec ▸ h)
  | ok i =>
    have hencode := encode_of_decode_ok hdec
    refine keepsSticky_exec ?_ ?_ (runCommand_of_decode_ok s hdec ▸ h)
    · rintro rfl
      exact hop.1 hencode.symm
    · rintro rfl
      exact hop.2 hencode.symm

/-! ### Draws -/

/-- The epoch and the counter of draws stay (R37). -/
def State.KeepsDraws (s t : State) : Prop :=
  t.epoch = s.epoch ∧ t.draws = s.draws

theorem keepsDraws_exec {i : Instr} {s t : State} (h : exec i s = .next t) : s.KeepsDraws t := by
  by_cases hi : i = .sreset
  · subst hi
    cases execSreset_cases s ▸ h
    exact ⟨rfl, rfl⟩
  · rcases exec_ends i s hi with ⟨_, _, hfail⟩ | ⟨k, s', hdone, _, _, _, _, hepoch, hdraws, _⟩
    · obtain rfl := failCommand_next (hfail ▸ h)
      exact ⟨rfl, rfl⟩
    · obtain rfl := completeCommand_next (hdone ▸ h)
      exact ⟨hepoch, hdraws⟩

theorem keepsDraws_runCommand {op : Byte} {s t : State} (h : runCommand op s = .next t) : s.KeepsDraws t := by
  cases hdec : decode op with
  | ok i => exact keepsDraws_exec (runCommand_of_decode_ok s hdec ▸ h)
  | error e =>
    obtain rfl := failCommand_next (runCommand_of_decode_error s hdec ▸ h)
    exact ⟨rfl, rfl⟩

end Sys2Proof.Machine
end

section
/-! What one event of the host's order can do, said once (R43 to R45, R50, R181), and what it leaves of `STICKY` and of
the draws. -/

namespace Sys2Proof.Machine

/-! ### The effects of an event -/

/-- The effects an event can have on the state `s`: one constructor per outcome, with the state it leaves. -/
inductive EventEffect (s : State) : HostEvent → State → Prop
  /-- R43 -/
  | read {space index : Nat} {loc : Location} (hloc : decodeLocation s.params space index = some loc) :
      EventEffect s (.read space index) (s.pushReturned (s.load loc))
  /-- R45 -/
  | readRefused {space index : Nat} (hloc : decodeLocation s.params space index = none) :
      EventEffect s (.read space index) ((refuseAccess s).pushReturned (Config.refusedRead s.draws)).nextDraw
  /-- R44, but for `CMD` -/
  | stored {space index : Nat} {v : Dword} {loc : Location} {t : State}
      (hloc : decodeLocation s.params space index = some loc) (hstore : s.store v loc = some t) :
      EventEffect s (.write space index v) t
  /-- R45 -/
  | writeRefused (space index : Nat) (v : Dword) : EventEffect s (.write space index v) (refuseAccess s)
  /-- R14, R92 -/
  | command {v : Dword} {t : State} (hrun : runCommand (v.setWidth 8) s = .next t) : EventEffect s (.write 0 0 v) t
  /-- R180, R181 -/
  | reset : EventEffect s .reset (externalReset s)

theorem hostRead_effect (space index : Nat) (s : State) :
    EventEffect s (.read space index) (hostRead space index s) := by
  cases hloc : decodeLocation s.params space index with
  | some loc => exact hostRead_of_location hloc ▸ .read hloc
  | none => exact hostRead_refused hloc ▸ .readRefused hloc

theorem hostWrite_effect {space index : Nat} {v : Dword} {s t : State} (h : hostWrite space index v s = .next t) :
    EventEffect s (.write space index v) t := by
  cases hloc : decodeLocation s.params space index with
  | none =>
    cases hostWrite_refused hloc ▸ h
    exact .writeRefused space index v
  | some loc =>
    rw [hostWrite_of_location hloc] at h
    by_cases hcmd : loc = .csr .cmd
    · subst hcmd
      obtain ⟨rfl, rfl⟩ := decodeLocation_eq_csr hloc
      exact .command h
    · cases writeLocation_of_ne_cmd v s hcmd ▸ h
      cases hstore : s.store v loc with
      | none => exact .writeRefused space index v
      | some t => exact .stored hloc hstore

theorem applyEvent_effect {e : HostEvent} {s t : State} (h : applyEvent e s = .next t) : EventEffect s e t := by
  cases e with
  | read space index =>
    cases h
    exact hostRead_effect space index s
  | write space index v => exact hostWrite_effect h
  | reset =>
    cases h
    exact .reset

/-- A host store reaches operand registers and buffer elements only (R44). -/
theorem store_keeps {s t : State} {v : Dword} {loc : Location} (h : s.store v loc = some t) :
    t.csr.sticky = s.csr.sticky ∧ s.KeepsDraws t := by
  cases loc with
  | csr r =>
    obtain ⟨c, hc, rfl⟩ := Option.map_eq_some_iff.1 h
    refine ⟨?_, rfl, rfl⟩
    cases r <;> cases hc <;> rfl
  | element b i => cases b <;> cases h <;> exact ⟨rfl, rfl, rfl⟩

/-! ### Sticky bits -/

/-- Settles O14, effect by effect: a refusal adds a bit, and of the commands only CLRS and SRESET clear any. -/
theorem stickyBitsStayUntilCleared : Obligations.StickyBitsStayUntilCleared := by
  intro s t e rest n hscript hreset hword hstep
  rw [step_of_script_cons hscript] at hstep
  suffices hkeeps : (s.setScript rest).KeepsSticky t from hkeeps n
  cases applyEvent_effect hstep with
  | read => exact .of_eq rfl
  | readRefused => exact .of_or rfl
  | stored _ hstore => exact .of_eq (store_keeps hstore).1
  | writeRefused => exact .of_or rfl
  | command hrun => exact keepsSticky_runCommand (hword _ rfl) hrun
  | reset => exact absurd rfl hreset

/-! ### Draws -/

/-- Every event but the reset keeps the epoch, and the counter of draws never comes down (R37, R45). -/
theorem EventEffect.draws_of_ne_reset {e : HostEvent} {s t : State} (h : EventEffect s e t) (he : e ≠ .reset) :
    s.draws ≤ t.draws ∧ t.epoch = s.epoch := by
  cases h with
  | read => exact ⟨le_rfl, rfl⟩
  | readRefused => exact ⟨Nat.le_succ _, rfl⟩
  | stored _ hstore =>
    obtain ⟨_, hepoch, hdraws⟩ := store_keeps hstore
    exact ⟨hdraws.ge, hepoch⟩
  | writeRefused => exact ⟨le_rfl, rfl⟩
  | command hrun =>
    obtain ⟨hepoch, hdraws⟩ := keepsDraws_runCommand hrun
    exact ⟨hdraws.ge, hepoch⟩
  | reset => exact absurd rfl he

/-- Settles O60: no event, the external reset, or an event that keeps the epoch. -/
theorem noStepTakesADrawAgain : Obligations.NoStepTakesADrawAgain := by
  intro s t hstep
  cases hscript : s.script with
  | nil =>
    rw [step_of_script_nil hscript] at hstep
    cases hstep
    exact ⟨le_rfl, fun _ => rfl, fun h => nomatch h⟩
  | cons e rest =>
    rw [step_of_script_cons hscript] at hstep
    by_cases he : e = .reset
    · subst he
      cases hstep
      exact ⟨Nat.le_succ _, fun h => absurd rfl h, fun _ => ⟨le_rfl, Nat.lt_succ_self _⟩⟩
    · obtain ⟨hdraws, hepoch⟩ := (applyEvent_effect hstep).draws_of_ne_reset he
      exact ⟨hdraws, fun _ => hepoch, fun h => absurd (Option.some.inj h) he⟩

/-! ### The write of a command word -/

/-- Settles O5: number 0 of space 0 is `CMD`, whose write runs the command. -/
theorem stepRunsTheDecodedCommand : Obligations.StepRunsTheDecodedCommand := by
  intro s v rest i hscript hdec
  calc step s = hostWrite 0 0 v (s.setScript rest) := step_of_script_cons hscript
    _ = runCommand (v.setWidth 8) (s.setScript rest) := hostWrite_of_location (decodeLocation_csr _ .cmd)
    _ = exec i (s.setScript rest) := runCommand_of_decode_ok _ hdec

end Sys2Proof.Machine
end

section
/-! The state after reset, the initial one and one applied by the host (R36, R37, R180). -/

namespace Sys2Proof.Machine

theorem step_of_script_reset {s : State} {rest : Script} (h : s.script = .reset :: rest) :
    step s = .next (externalReset (s.setScript rest)) :=
  step_of_script_cons h

theorem Csrs.load_reset (r : CsrName) : Csrs.reset.load r = 0 := by
  cases r <;> rfl

/-- An empty buffer reads the free value at every index (R37). -/
@[simp] theorem Memory.read_nil {w : Nat} (free : Nat → BitVec w) (k : Nat) :
    Memory.read ([] : Memory w) free k = free k := rfl

/-- Settles O8: both resets leave `Csrs.reset`. -/
theorem resetClearsEveryRegister : Obligations.ResetClearsEveryRegister :=
  ⟨Csrs.load_reset, fun _ _ hscript => ⟨_, step_of_script_reset hscript, Csrs.load_reset⟩⟩

/-- Settles O9: the reset takes `draws` as its epoch and empties the buffers. -/
theorem resetMakesBuffersUnspecified : Obligations.ResetMakesBuffersUnspecified := by
  intro s rest hscript hfresh
  refine ⟨_, step_of_script_reset hscript, hfresh, le_rfl, Nat.lt_succ_self _, rfl, rfl, rfl, fun k => ?_⟩
  simp [State.readIb, State.readOb, State.readSer, State.readDlt, State.readReg, bufferSpace]

theorem State.storageInv_reset : State.reset.StorageInv where
  paramsWf := by decide
  ib := Memory.valid_nil _
  ob := Memory.valid_nil _
  ser := Memory.valid_nil _
  dlt := Memory.valid_nil _
  reg := Memory.valid_nil _
  fresh := Nat.zero_lt_one

/-- Settles O10: the example parameters are legal, the buffers empty, and every CSR is 0. -/
theorem invariantHoldsAfterReset : Obligations.InvariantHoldsAfterReset :=
  (State.inv_iff _).2 ⟨State.storageInv_reset, Csrs.reportInv_reset _⟩

end Sys2Proof.Machine
end

section
/-! What a command may write among the buffer elements (R42, R57): the first elements of its output buffer, as many as
`RLEN` or `RCNT` then reports. -/

namespace Sys2Proof

/-- The capacities fit the 16-bit registers that report lengths and counts (R1). -/
theorem Params.capacities_le {p : Params} (h : p.wf = true) : p.nb ≤ 65535 ∧ p.nw ≤ 65535 := by
  simp only [Params.wf, Params.nbWf, Params.nwWf, Bool.and_eq_true, decide_eq_true_eq] at h
  obtain ⟨⟨⟨⟨_, hnb⟩, _, hnw⟩, _⟩, _⟩ := h
  exact ⟨hnb, hnw⟩

end Sys2Proof

namespace Sys2Proof.Machine

/-! ### The elements a command leaves -/

/-- Every buffer element outside the range that the command `i`, with its writes collected in `u`, reports as written
(R42) is that of `s`. -/
def State.KeepsOutsideRange (s : State) (i : Instr) (u : State) : Prop :=
  ∀ b k, (outputBuffer i = some b → writtenCount b u ≤ k) → u.load (.element b k) = s.load (.element b k)

theorem State.load_element_setCsr (s : State) (c : Csrs) (b : BufferName) (k : Nat) :
    (s.setCsr c).load (.element b k) = s.load (.element b k) := by
  cases b <;> rfl

theorem State.keepsOutsideRange_setCsr (s : State) (i : Instr) (c : Csrs) : s.KeepsOutsideRange i (s.setCsr c) :=
  fun b k _ => s.load_element_setCsr c b k

/-- The ways a command collects its writes to a buffer: `s.FilledFront b n u` when `u` is `s` with the first `n` elements
of `b` written, and with any CSRs. -/
inductive State.FilledFront (s : State) : BufferName → Nat → State → Prop
  | ob (vs : List Byte) (c : Csrs) : s.FilledFront .ob vs.length ((s.setOb (s.ob.writeFrom 0 vs)).setCsr c)
  | ser (vs : List Dword) (c : Csrs) : s.FilledFront .ser vs.length ((s.setSer (s.ser.writeFrom 0 vs)).setCsr c)
  | dlt (vs : List Word) (c : Csrs) : s.FilledFront .dlt vs.length ((s.setDlt (s.dlt.writeFrom 0 vs)).setCsr c)
  | reg (vs : List Half) (c : Csrs) : s.FilledFront .reg vs.length ((s.setReg (s.reg.writeFrom 0 vs)).setCsr c)

namespace State.FilledFront

variable {s u : State} {b : BufferName} {n : Nat}

theorem load_of_ne (h : s.FilledFront b n u) {b' : BufferName} (hb : b' ≠ b) (k : Nat) :
    u.load (.element b' k) = s.load (.element b' k) := by
  cases h with
  | ob => cases b' with
    | ob => exact absurd rfl hb
    | _ => rfl
  | ser => cases b' with
    | ser => exact absurd rfl hb
    | _ => rfl
  | dlt => cases b' with
    | dlt => exact absurd rfl hb
    | _ => rfl
  | reg => cases b' with
    | reg => exact absurd rfl hb
    | _ => rfl

theorem load_of_le (h : s.FilledFront b n u) {k : Nat} (hk : n ≤ k) :
    u.load (.element b k) = s.load (.element b k) := by
  have hlt := Nat.not_lt.2 hk
  cases h with
  | ob => simp [State.load, State.readOb_setOb_writeFrom, hlt]
  | ser => simp [State.load, State.readSer_setSer_writeFrom, hlt]
  | dlt => simp [State.load, State.readDlt_setDlt_writeFrom, hlt]
  | reg => simp [State.load, State.readReg_setReg_writeFrom, hlt]

end State.FilledFront

/-- A command that writes no more elements than it then reports. -/
theorem State.KeepsOutsideRange.of_filledFront {i : Instr} {s u : State} {b : BufferName} {n : Nat}
    (h : s.FilledFront b n u) (hi : outputBuffer i = some b) (hn : n ≤ writtenCount b u) :
    s.KeepsOutsideRange i u := by
  intro b' k hk
  by_cases hb : b' = b
  · subst hb
    exact h.load_of_le (hn.trans (hk hi))
  · exact h.load_of_ne hb k

/-- A count that fits a 16-bit register is reported in full. -/
theorem le_toNat_ofNat {written n bound : Nat} (hwritten : written = n) (h : n ≤ bound) (hbound : bound ≤ 65535) :
    written ≤ (BitVec.ofNat 16 n).toNat := by
  rw [BitVec.toNat_ofNat]
  omega

theorem keepsOutsideRange_buildFrame {i : Instr} (hi : outputBuffer i = some .ob) (s : State) (function : Byte) :
    s.KeepsOutsideRange i (s.buildFrame function) :=
  State.KeepsOutsideRange.of_filledFront (.ob _ _) hi (by simp [writtenCount, State.buildFrame])

/-- A command but SRESET ends with an error, or has collected its writes inside the range it reports. Legal parameters
are what keeps a report from being truncated (R1). -/
theorem exec_keepsOutsideRange {s : State} (hp : s.params.wf = true) (i : Instr) (hi : i ≠ .sreset) :
    (∃ e, exec i s = failCommand (encode i) e s) ∨
      ∃ k u, exec i s = completeCommand i k u ∧ s.KeepsOutsideRange i u := by
  obtain ⟨hnb, hnw⟩ := Params.capacities_le hp
  cases i with
  | sreset => exact absurd rfl hi
  | nop => exact .inr ⟨_, _, execNop_cases s, fun _ _ _ => rfl⟩
  | clrs => exact .inr ⟨_, _, execClrs_cases s, s.keepsOutsideRange_setCsr _ _⟩
  | zzenc => exact .inr ⟨_, _, execZzenc_cases s, s.keepsOutsideRange_setCsr _ _⟩
  | zzdec => exact .inr ⟨_, _, execZzdec_cases s, s.keepsOutsideRange_setCsr _ _⟩
  | bldrd => exact .inr ⟨_, _, execBldrd_cases s, keepsOutsideRange_buildFrame rfl s _⟩
  | bldwr => exact .inr ⟨_, _, execBldwr_cases s, keepsOutsideRange_buildFrame rfl s _⟩
  | venc =>
    obtain ⟨_, hlen⟩ := length_varint s.csr.val
    exact .inr ⟨_, _, execVenc_cases s, .of_filledFront (.ob _ _) rfl (le_toNat_ofNat rfl hlen (by decide))⟩
  | crc16 =>
    rcases execCrc16_cases s with ⟨e, _, hfail⟩ | ⟨_, h⟩
    · exact .inl ⟨e, hfail⟩
    · exact .inr ⟨_, _, h, s.keepsOutsideRange_setCsr _ _⟩
  | crcapp =>
    rcases execCrcapp_cases s with ⟨e, _, hfail⟩ | ⟨hlen, h⟩
    · exact .inl ⟨e, hfail⟩
    · exact .inr ⟨_, _, h, .of_filledFront (.ob _ _) rfl (le_toNat_ofNat (by simp) hlen hnb)⟩
  | crcvfy =>
    rcases execCrcvfy_cases s with ⟨e, _, hfail⟩ | ⟨_, _, _, h⟩
    · exact .inl ⟨e, hfail⟩
    · exact .inr ⟨_, _, h, s.keepsOutsideRange_setCsr _ _⟩
  | parse =>
    rcases execParse_cases s with ⟨e, _, hfail⟩ | ⟨_, _, _, _, h⟩ | ⟨hlen, _, _, _, hcount, _, h⟩ | ⟨_, _, _, _, _, h⟩
    · exact .inl ⟨e, hfail⟩
    · exact .inr ⟨_, _, h, s.keepsOutsideRange_setCsr _ _⟩
    · have hfit : (s.readIb 2).toNat / 2 ≤ s.params.nb := by omega
      exact .inr ⟨_, _, h, .of_filledFront (.reg _ _) rfl (le_toNat_ofNat (by simp) hfit hnb)⟩
    · exact .inr ⟨_, _, h, s.keepsOutsideRange_setCsr _ _⟩
  | denc =>
    rcases execDenc_cases s with ⟨e, _, hfail⟩ | ⟨deltas, hcnt, henc, h⟩
    · exact .inl ⟨e, hfail⟩
    · have hlen : deltas.length = s.cntOperand := by simpa using length_of_deltaEncode henc
      exact .inr ⟨_, _, h, .of_filledFront (.dlt _ _) rfl (le_toNat_ofNat hlen hcnt hnw)⟩
  | ddec =>
    rcases execDdec_cases s with ⟨e, _, hfail⟩ | ⟨hcnt, h⟩
    · exact .inl ⟨e, hfail⟩
    · exact .inr ⟨_, _, h, .of_filledFront (.ser _ _) rfl (le_toNat_ofNat (by simp) hcnt hnw)⟩
  | vdec =>
    rcases execVdec_cases s with ⟨e, _, hfail⟩ | ⟨_, _, _, _, h⟩
    · exact .inl ⟨e, hfail⟩
    · exact .inr ⟨_, _, h, s.keepsOutsideRange_setCsr _ _⟩
  | pack =>
    rcases execPack_cases s with ⟨e, _, hfail⟩ | ⟨_, hlen, h⟩
    · exact .inl ⟨e, hfail⟩
    · exact .inr ⟨_, _, h, .of_filledFront (.ob _ _) rfl (le_toNat_ofNat rfl hlen hnb)⟩
  | unpack =>
    rcases execUnpack_cases s with ⟨e, _, hfail⟩ | ⟨deltas, _, _, hlen, h⟩
    · exact .inl ⟨e, hfail⟩
    · exact .inr ⟨_, _, h, .of_filledFront (.dlt _ _) rfl (le_toNat_ofNat rfl hlen hnw)⟩

/-- The end of a command writes `CMD`, `STATUS` and `STICKY` only, none of which reports a range (R162). -/
theorem writtenCount_setEnd (s : State) (op st : Byte) (sticky : BitVec 9) (b : BufferName) :
    writtenCount b (s.setCsr { s.csr with cmd := op, status := st, sticky := sticky }) = writtenCount b s := by
  cases b <;> rfl

/-- Settles O16: SRESET and an error end write no buffer; a successful end has ERR 0 and keeps what the collected writes
left. -/
theorem commandsWriteOnlyTheirRange : Obligations.CommandsWriteOnlyTheirRange := by
  intro i s t b k hp h houtside
  by_cases hi : i = .sreset
  · subst hi
    cases execSreset_cases s ▸ h
    exact s.load_element_setCsr _ b k
  rcases exec_keepsOutsideRange hp i hi with ⟨e, hfail⟩ | ⟨kind, u, hdone, hkeeps⟩
  · obtain rfl := failCommand_next (hfail ▸ h)
    exact s.load_element_setCsr _ b k
  · obtain rfl := completeCommand_next (hdone ▸ h)
    rw [State.load_element_setCsr]
    refine hkeeps b k fun hb => ?_
    rcases houtside with herr | hbuffer | hcount
    · exact absurd (statusErr_statusOfKind kind) herr
    · exact absurd hb hbuffer
    · rwa [writtenCount_setEnd] at hcount

end Sys2Proof.Machine
end

section
/-! The accesses of the host port (R43 to R45): what the step of a read or a write does, by the location it names. -/

namespace Sys2Proof.Machine

variable {s : State} {rest : Script} {space index : Nat} {v : Dword}

/-! ### The step of an access -/

/-- No location holds the host's pending events. -/
theorem State.load_setScript (s : State) (es : Script) (loc : Location) : (s.setScript es).load loc = s.load loc := by
  cases loc with
  | csr r => rfl
  | element b i => cases b <;> rfl

theorem step_read_of_location {loc : Location} (hscript : s.script = .read space index :: rest)
    (hloc : decodeLocation s.params space index = some loc) :
    step s = .next ((s.setScript rest).pushReturned (s.load loc)) :=
  calc step s = .next (hostRead space index (s.setScript rest)) := step_of_script_cons hscript
    _ = .next ((s.setScript rest).pushReturned ((s.setScript rest).load loc)) := by
      rw [hostRead_of_location (s := s.setScript rest) hloc]
    _ = .next ((s.setScript rest).pushReturned (s.load loc)) := by rw [State.load_setScript]

theorem step_read_refused (hscript : s.script = .read space index :: rest)
    (hloc : decodeLocation s.params space index = none) :
    step s = .next ((refuseAccess (s.setScript rest)).pushReturned (Config.refusedRead s.draws)).nextDraw :=
  calc step s = .next (hostRead space index (s.setScript rest)) := step_of_script_cons hscript
    _ = _ := by rw [hostRead_refused (s := s.setScript rest) hloc, State.setScript_draws]

theorem step_write_cmd (hscript : s.script = .write 0 0 v :: rest) :
    step s = runCommand (v.setWidth 8) (s.setScript rest) :=
  calc step s = hostWrite 0 0 v (s.setScript rest) := step_of_script_cons hscript
    _ = runCommand (v.setWidth 8) (s.setScript rest) := hostWrite_of_location (decodeLocation_csr _ .cmd)

/-- A write to an existing location but `CMD` is a store, or a refusal where there is no store. -/
theorem step_write_of_location {loc : Location} (hscript : s.script = .write space index v :: rest)
    (hloc : decodeLocation s.params space index = some loc) (hcmd : loc ≠ .csr .cmd) :
    step s = .next (((s.setScript rest).store v loc).getD (refuseAccess (s.setScript rest))) :=
  calc step s = hostWrite space index v (s.setScript rest) := step_of_script_cons hscript
    _ = writeLocation loc v (s.setScript rest) := hostWrite_of_location hloc
    _ = _ := writeLocation_of_ne_cmd v _ hcmd

theorem step_write_refused (hscript : s.script = .write space index v :: rest)
    (hloc : decodeLocation s.params space index = none) : step s = .next (refuseAccess (s.setScript rest)) :=
  calc step s = hostWrite space index v (s.setScript rest) := step_of_script_cons hscript
    _ = .next (refuseAccess (s.setScript rest)) := hostWrite_refused hloc

/-! ### Buffer elements -/

/-- Every element inside its buffer has a store (R44). -/
theorem step_write_element {b : BufferName} {t : State} (hscript : s.script = .write (bufferSpace b) index v :: rest)
    (hindex : index < bufferSize s.params b) (hstore : (s.setScript rest).store v (.element b index) = some t) :
    step s = .next t := by
  rw [step_write_of_location hscript (decodeLocation_element hindex) (fun h => nomatch h), hstore, Option.getD_some]

theorem Memory.read_write {w : Nat} (m : Memory w) (free : Nat → BitVec w) (i : Nat) (v : BitVec w) (k : Nat) :
    (m.write i v).read free k = if k = i then v else m.read free k := by
  split
  · subst k
    exact Memory.read_write_same m free i v
  next hne => exact Memory.read_write_ne m free v hne

/-- Settles O20: the write of each buffer's element is a store into that buffer, and an element reads as `Memory.read`
says. -/
theorem hostWriteStoresInBuffers : Obligations.HostWriteStoresInBuffers := by
  intro s rest space index v hscript
  refine ⟨?_, ?_, ?_, ?_, ?_⟩
  · rintro rfl hindex
    exact ⟨_, step_write_element (b := .ib) hscript hindex rfl, rfl, Memory.read_write s.ib _ index _⟩
  · rintro rfl hindex
    exact ⟨_, step_write_element (b := .ob) hscript hindex rfl, rfl, Memory.read_write s.ob _ index _⟩
  · rintro rfl hindex
    exact ⟨_, step_write_element (b := .ser) hscript hindex rfl, rfl, Memory.read_write s.ser _ index _⟩
  · rintro rfl hindex
    exact ⟨_, step_write_element (b := .dlt) hscript hindex rfl, rfl, Memory.read_write s.dlt _ index _⟩
  · rintro rfl hindex
    exact ⟨_, step_write_element (b := .reg) hscript hindex rfl, rfl, Memory.read_write s.reg _ index _⟩

/-! ### Registers -/

/-- The CSRs in the order of their numbers (R13). -/
def csrTable : List CsrName :=
  [.cmd, .status, .sticky, .slave, .addr, .data, .len, .cnt, .off, .val, .crc, .rlen, .rcnt, .raddr, .rfunc, .exc,
   .reason]

theorem csrTable_numbers : csrTable.map csrNumber = List.range 17 := rfl

/-- Settles O18: a register's pair of number and value comes from the table of CSRs, an element's place from its
buffer. -/
theorem hostReadReturnsTheElement : Obligations.HostReadReturnsTheElement := by
  intro s rest space index v hscript hvalue
  rcases hvalue with ⟨rfl, hmem⟩ | ⟨rfl, hindex, rfl⟩ | ⟨rfl, hindex, rfl⟩ | ⟨rfl, hindex, rfl⟩ | ⟨rfl, hindex, rfl⟩ |
    ⟨rfl, hindex, rfl⟩
  · change (index, v) ∈ csrTable.map fun r => (csrNumber r, s.csr.load r) at hmem
    obtain ⟨r, _, hpair⟩ := List.mem_map.1 hmem
    cases hpair
    exact step_read_of_location hscript (decodeLocation_csr _ r)
  · exact step_read_of_location hscript (decodeLocation_element (b := .ib) hindex)
  · exact step_read_of_location hscript (decodeLocation_element (b := .ob) hindex)
  · exact step_read_of_location hscript (decodeLocation_element (b := .ser) hindex)
  · exact step_read_of_location hscript (decodeLocation_element (b := .dlt) hindex)
  · exact step_read_of_location hscript (decodeLocation_element (b := .reg) hindex)

/-- A register with a plain store takes the host's value (R44). -/
theorem step_write_register {r : CsrName} {c : Csrs} (hscript : s.script = .write 0 (csrNumber r) v :: rest)
    (hstore : s.csr.store v r = some c) : step s = .next ((s.setScript rest).setCsr c) := by
  have hcmd : Location.csr r ≠ .csr .cmd := by
    rintro ⟨rfl⟩
    cases hstore
  rw [step_write_of_location hscript (decodeLocation_csr _ r) hcmd]
  simp [State.store, hstore]

/-- Settles O19: number 0 is `CMD`, and the stores listed are those that `Csrs.store` gives along the table of CSRs. -/
theorem hostWriteStoresInRegisters : Obligations.HostWriteStoresInRegisters := by
  intro s rest index v hscript
  refine ⟨?_, fun c hmem => ?_⟩
  · rintro rfl
    exact step_write_cmd hscript
  · change (index, c) ∈ csrTable.filterMap fun r => (s.csr.store v r).map fun c => (csrNumber r, c) at hmem
    obtain ⟨r, _, hpair⟩ := List.mem_filterMap.1 hmem
    obtain ⟨_, hstore, hpair⟩ := Option.map_eq_some_iff.1 hpair
    cases hpair
    exact step_write_register hscript hstore

/-! ### Refused accesses -/

/-- A register that the host may not write has no store (R44, R45). -/
theorem Csrs.store_of_not_hostWritable (c : Csrs) (v : Dword) {r : CsrName}
    (h : csrHostWritable (csrNumber r) = false) : c.store v r = none := by
  cases r with
  | slave | addr | data | len | cnt | off | val => cases h
  | _ => rfl

theorem step_write_readOnly {r : CsrName} (hscript : s.script = .write 0 (csrNumber r) v :: rest)
    (hr : csrHostWritable (csrNumber r) = false) : step s = .next (refuseAccess (s.setScript rest)) := by
  have hcmd : Location.csr r ≠ .csr .cmd := by
    rintro ⟨rfl⟩
    cases hr
  rw [step_write_of_location hscript (decodeLocation_csr _ r) hcmd]
  simp [State.store, Csrs.store_of_not_hostWritable _ _ hr]

theorem exists_csrNumber_eq {n : Nat} (h : n < 17) : ∃ r, csrNumber r = n := by
  have hmem : n ∈ csrTable.map csrNumber := csrTable_numbers ▸ List.mem_range.2 h
  obtain ⟨r, _, hr⟩ := List.mem_map.1 hmem
  exact ⟨r, hr⟩

theorem readOnly_numbers :
    ∀ n ∈ [1, 2, 10, 11, 12, 13, 14, 15, 16], n < 17 ∧ csrHostWritable n = false := by
  decide

/-- Settles O21: outside its space an index names no location, and a read-only register has no store. -/
theorem refusedAccessSetsAccessOnly : Obligations.RefusedAccessSetsAccessOnly := by
  refine ⟨fun s rest space index hscript hout => ?_, fun s rest space index v hscript hrefused => ?_⟩
  · exact step_read_refused hscript ((decodeLocation_eq_none_iff _ _ _).2 hout)
  · rcases hrefused with hout | ⟨rfl, hmem⟩
    · exact step_write_refused hscript ((decodeLocation_eq_none_iff _ _ _).2 hout)
    · obtain ⟨hlt, hreadOnly⟩ := readOnly_numbers index hmem
      obtain ⟨r, rfl⟩ := exists_csrNumber_eq hlt
      exact step_write_readOnly hscript hreadOnly

end Sys2Proof.Machine
end

section
/-! Decoding and encoding (30_encoding.md R60 to R63): the opcode map as a table over the commands. -/

namespace Sys2Proof

/-- Settles O1. -/
theorem everyOpcodeDecodesToItsCommand : Obligations.EveryOpcodeDecodesToItsCommand :=
  decode_encode

/-- Settles O4: each word is the opcode of its command. -/
theorem wordsOfEachUnitDecode : Obligations.WordsOfEachUnitDecode :=
  ⟨decode_encode .sreset, decode_encode .crcapp, decode_encode .parse, decode_encode .ddec, decode_encode .vdec,
    decode_encode .unpack⟩

/-- The decoder is the exact inverse of the encoder (R61). -/
theorem decode_eq_ok_iff {op : Byte} {i : Instr} : decode op = .ok i ↔ encode i = op :=
  ⟨encode_of_decode_ok, fun h => h ▸ decode_encode i⟩

/-- The decoder refuses exactly the words that are no command's opcode, each by name (R63). -/
theorem decode_eq_error_iff {op : Byte} : decode op = .error (.reservedOpcode op) ↔ ∀ i, encode i ≠ op := by
  cases hdec : decode op with
  | ok i => simpa using ⟨i, encode_of_decode_ok hdec⟩
  | error e =>
    have hno : ∀ i, encode i ≠ op := fun i hi => by simp [decode_eq_ok_iff.2 hi] at hdec
    simpa [eq_of_decode_error hdec] using hno

/-- The commands in the order of their opcodes (R61). -/
def commandTable : List Instr :=
  [.nop, .clrs, .sreset, .crc16, .crcapp, .crcvfy, .bldrd, .bldwr, .parse, .denc, .ddec, .zzenc, .zzdec, .venc, .vdec,
   .pack, .unpack]

theorem mem_commandTable (i : Instr) : i ∈ commandTable := by
  cases i <;> decide

/-- The bytes that the decoder accepts are the commands' opcodes, in their order (R61). -/
theorem filter_decode_isSome :
    ((List.range 256).filter fun n => !(decode (BitVec.ofNat 8 n)).toOption.isNone) =
      commandTable.map fun i => (encode i).toNat := by
  simp +decide

/-- Settles O3: a refusal names its word, and of the 256 bytes the 17 opcodes are accepted and the rest refused. -/
theorem reservedOpcodesAreRefusedByTheDecoder : Obligations.ReservedOpcodesAreRefusedByTheDecoder := by
  refine ⟨fun _ => decode_eq_error_iff.2, ?_⟩
  have hsplit := List.length_eq_length_filter_add (l := List.range 256)
    fun n => (decode (BitVec.ofNat 8 n)).toOption.isNone
  have hcommands : commandTable.length = 17 := rfl
  rw [filter_decode_isSome, List.length_range, List.length_map, hcommands] at hsplit
  omega

/-- A command's row of the opcode map: its opcode, its UNIT, its FN and the command (R61). -/
def opcodeRow (i : Instr) : Byte × BitVec 4 × BitVec 4 × Instr := (encode i, unitCode i.unit, i.fn, i)

/-- The map holds one row for each command. -/
theorem mem_opcodeRows_iff {op : Byte} {unit fn : BitVec 4} {i : Instr} :
    (op, unit, fn, i) ∈ commandTable.map opcodeRow ↔ encode i = op ∧ unitCode i.unit = unit ∧ i.fn = fn := by
  constructor
  · intro hmem
    obtain ⟨j, _, hrow⟩ := List.mem_map.1 hmem
    cases hrow
    exact ⟨rfl, rfl, rfl⟩
  · rintro ⟨rfl, rfl, rfl⟩
    exact List.mem_map_of_mem (mem_commandTable i)

/-- The two fields of every command's opcode are the UNIT and FN of its row (R60, R61). -/
theorem Laws.EncodingFields.statement : ∀ i, Laws.EncodingFields.Statement i
  | .nop => nop
  | .clrs => clrs
  | .sreset => sreset
  | .crc16 => crc16
  | .crcapp => crcapp
  | .crcvfy => crcvfy
  | .bldrd => bldrd
  | .bldwr => bldwr
  | .parse => parse
  | .denc => denc
  | .ddec => ddec
  | .zzenc => zzenc
  | .zzdec => zzdec
  | .venc => venc
  | .vdec => vdec
  | .pack => pack
  | .unpack => unpack

/-- Settles O2: the rows written out are those of the table of commands, so a row with a byte and a command says that the
byte is the command's opcode. -/
theorem decodingIsTheOpcodeMap : Obligations.DecodingIsTheOpcodeMap := by
  refine ⟨commandTable.map opcodeRow, rfl, fun op i => ?_, fun op unit fn i hrow => ?_⟩
  · simp [decode_eq_ok_iff, mem_opcodeRows_iff]
  · obtain ⟨rfl, rfl, rfl⟩ := mem_opcodeRows_iff.1 hrow
    exact Laws.EncodingFields.statement i

end Sys2Proof

/-! The VARINT unit's data formats (30_encoding.md R76, R78). -/

namespace Sys2Proof.Machine

/-! ### Zigzag -/

theorem shiftRight_31_of_msb_false {p : Word} (h : p.msb = false) : p >>> 31 = 0#32 := by
  have hlt := BitVec.toNat_lt_of_msb_false h
  bv_omega

/-- The sign's copies of a nonnegative value are 0 (R140). -/
theorem zigzag_of_msb_false {p : Word} (h : p.msb = false) : zigzag p = p <<< 1 := by
  rw [zigzag, BitVec.sshiftRight_eq_of_msb_false h, shiftRight_31_of_msb_false h, BitVec.xor_zero]

/-- The sign's copies of a negative value are 1, and the xor complements (R140). -/
theorem zigzag_of_msb_true {p : Word} (h : p.msb = true) : zigzag p = ~~~(p <<< 1) := by
  have hnot : (~~~p).msb = false := by simp [h]
  rw [zigzag, BitVec.sshiftRight_eq_of_msb_true h, shiftRight_31_of_msb_false hnot, BitVec.not_zero, BitVec.xor_allOnes]

/-- Settles O44: by the sign of the value. -/
theorem zigzagValueInNumbers : Obligations.ZigzagValueInNumbers := by
  intro p
  have hdouble : (p <<< 1).toNat = 2 * p.toNat % 2 ^ 32 := by
    rw [BitVec.toNat_shiftLeft, Nat.shiftLeft_eq, Nat.mul_comm, pow_one]
  cases hsign : p.msb with
  | false =>
    have := BitVec.toNat_lt_of_msb_false hsign
    rw [zigzag_of_msb_false hsign, hdouble, BitVec.toInt_eq_toNat_of_msb hsign]
    omega
  | true =>
    have := BitVec.toNat_ge_of_msb_true hsign
    rw [zigzag_of_msb_true hsign, BitVec.toNat_not, hdouble, BitVec.toInt_eq_msb_cond, if_pos hsign]
    omega

/-! ### Varints -/

theorem varintLoop_succ_of_lt {v : Word} (h : v.toNat < 128) (k : Nat) : varintLoop (k + 1) v = [v.setWidth 8] :=
  if_pos h

theorem varintLoop_succ_of_le {v : Word} (h : 128 ≤ v.toNat) (k : Nat) :
    varintLoop (k + 1) v = ((v.setWidth 8 &&& 0x7F#8) ||| 0x80#8) :: varintLoop k (v >>> 7) :=
  if_neg (Nat.not_lt.2 h)

theorem toNat_shiftRight_seven (v : Word) : (v >>> 7).toNat = v.toNat / 128 := by
  simp [Nat.shiftRight_eq_div_pow]

/-- The loop writes byte `j` when a value bit at `7j` or above is left and the continuation bytes allow it (R142). -/
theorem lt_length_varintLoop_iff (k : Nat) (v : Word) (j : Nat) :
    j < (varintLoop k v).length ↔ j = 0 ∨ j ≤ k ∧ 2 ^ (7 * j) ≤ v.toNat := by
  induction k generalizing v j with
  | zero =>
    rw [varintLoop, List.length_singleton]
    omega
  | succ k ih =>
    cases j with
    | zero => exact iff_of_true (length_varintLoop_pos (k + 1) v) (.inl rfl)
    | succ j =>
      have hpow : 2 ^ (7 * (j + 1)) = 128 * 2 ^ (7 * j) := by ring
      have hpos : 0 < 2 ^ (7 * j) := by positivity
      rcases Nat.lt_or_ge v.toNat 128 with hv | hv
      · rw [varintLoop_succ_of_lt hv, List.length_singleton, hpow]
        omega
      · rw [varintLoop_succ_of_le hv, List.length_cons, Nat.add_lt_add_iff_right, ih, toNat_shiftRight_seven, hpow]
        rcases j with _ | j <;> omega

theorem lt_length_varint_iff (v : Word) (j : Nat) :
    j < (varint v).length ↔ j = 0 ∨ j ≤ 4 ∧ 2 ^ (7 * j) ≤ v.toNat :=
  lt_length_varintLoop_iff 4 v j

/-- A byte with its continuation bit set keeps its low 7 bits (R142). -/
theorem extractLsb'_or_continuation (x : Byte) : ((x &&& 0x7F#8) ||| 0x80#8).extractLsb' 0 7 = x.extractLsb' 0 7 := by
  have hmask : (0x7F#8).extractLsb' 0 7 = BitVec.allOnes 7 := by decide
  have hflag : (0x80#8).extractLsb' 0 7 = 0#7 := by decide
  rw [BitVec.extractLsb'_or, BitVec.extractLsb'_and, hmask, hflag, BitVec.and_allOnes, BitVec.or_zero]

/-- Each turn of the loop moves the next 7-bit group down (R142). -/
theorem extractLsb'_shiftRight_seven (v : Word) (j : Nat) :
    (v >>> 7).extractLsb' (7 * j) 7 = v.extractLsb' (7 * (j + 1)) 7 := by
  apply BitVec.eq_of_getLsbD_eq
  intro i hi
  simp [hi, Nat.mul_add, Nat.add_comm, Nat.add_left_comm]

/-- Byte `j` carries value bits `7j+6 : 7j`, and bit 7 is set on all but the last byte (R76). -/
def CarriesGroups (v : Word) (bytes : List Byte) : Prop :=
  ∀ j, j < bytes.length →
    (bytes.getD j 0).extractLsb' 0 7 = v.extractLsb' (7 * j) 7 ∧
      ((bytes.getD j 0).getLsbD 7 = true ↔ j + 1 < bytes.length)

theorem carriesGroups_singleton {v : Word} (hv : v.toNat < 128) : CarriesGroups v [v.setWidth 8] := by
  intro j hj
  obtain rfl : j = 0 := Nat.lt_one_iff.1 hj
  have hclear : v[7] = false := Nat.testBit_lt_two_pow hv
  have hlow : (v.setWidth 8).extractLsb' 0 7 = v.extractLsb' 0 7 := BitVec.extractLsb'_setWidth_of_le (by decide)
  exact ⟨hlow, by simp [hclear]⟩

theorem CarriesGroups.cons {v : Word} {rest : List Byte} (hrest : CarriesGroups (v >>> 7) rest)
    (hpos : 1 ≤ rest.length) : CarriesGroups v (((v.setWidth 8 &&& 0x7F#8) ||| 0x80#8) :: rest) := by
  intro j hj
  cases j with
  | zero =>
    have hset : ((v.setWidth 8 &&& 0x7F#8) ||| 0x80#8).getLsbD 7 = true := by simp
    have hmore : 0 + 1 < (((v.setWidth 8 &&& 0x7F#8) ||| 0x80#8) :: rest).length := by
      rw [List.length_cons]
      omega
    exact ⟨(extractLsb'_or_continuation _).trans (BitVec.extractLsb'_setWidth_of_le (by decide)),
      iff_of_true hset hmore⟩
  | succ j =>
    rw [List.length_cons, Nat.add_lt_add_iff_right] at hj
    rw [List.getD_cons_succ, List.length_cons, Nat.add_lt_add_iff_right, ← extractLsb'_shiftRight_seven]
    exact hrest j hj

/-- The loop may take every byte that the value needs, so the byte it ends with has bit 7 clear. -/
theorem carriesGroups_varintLoop {k : Nat} {v : Word} (hv : v.toNat < 2 ^ (7 * (k + 1))) :
    CarriesGroups v (varintLoop k v) := by
  induction k generalizing v with
  | zero => exact carriesGroups_singleton hv
  | succ k ih =>
    rcases Nat.lt_or_ge v.toNat 128 with hone | hmore
    · rw [varintLoop_succ_of_lt hone]
      exact carriesGroups_singleton hone
    · rw [varintLoop_succ_of_le hmore]
      have hshift : (v >>> 7).toNat < 2 ^ (7 * (k + 1)) := by
        rw [toNat_shiftRight_seven, Nat.div_lt_iff_lt_mul (by decide)]
        calc v.toNat < 2 ^ (7 * (k + 1 + 1)) := hv
          _ = 2 ^ (7 * (k + 1)) * 128 := by ring
      exact (ih hshift).cons (length_varintLoop_pos k _)

/-- Settles O46: the table's bounds are those of the loop's bytes 1 to 4, and five groups of 7 bits hold every value. -/
theorem varintBytesOfAValue : Obligations.VarintBytesOfAValue := by
  intro v
  refine ⟨?_, carriesGroups_varintLoop (v.isLt.trans (by decide))⟩
  have hone := lt_length_varint_iff v 1
  have htwo := lt_length_varint_iff v 2
  have hthree := lt_length_varint_iff v 3
  have hfour := lt_length_varint_iff v 4
  obtain ⟨hpos, hfive⟩ := length_varint v
  split_ifs <;> omega

end Sys2Proof.Machine
end

section
/-! The SYS unit's commands (40_system.md R93 to R95), and the end of every host script (R97, R186): no event stops the
machine, and each leaves the parameters, takes itself from the script and returns one value exactly if it is a read. -/

namespace Sys2Proof

/-- Whether an event returns a value to the host (R43, R45). -/
def HostEvent.isRead : HostEvent → Bool
  | .read _ _ => true
  | .write _ _ _ => false
  | .reset => false

end Sys2Proof

namespace Sys2Proof.Machine

/-! ### NOP, CLRS, SRESET -/

/-- The successful end with kind NONE leaves `STATUS` 0 and `STICKY` as the collected writes left it (R162). -/
theorem completeCommand_none (i : Instr) (s : State) :
    completeCommand i .none s = .next (s.setCsr { s.csr with cmd := encode i, status := 0x00 }) := rfl

/-- Settles O22: NOP collects no writes. -/
theorem nopWritesCommandAndStatusOnly : Obligations.NopWritesCommandAndStatusOnly := fun s =>
  (execNop_cases s).trans (completeCommand_none .nop s)

/-- Settles O23: CLRS collects one write, 0 to `STICKY`. -/
theorem clrsClearsSticky : Obligations.ClrsClearsSticky := fun s =>
  (execClrs_cases s).trans (completeCommand_none .clrs _)

/-- Settles O24: SRESET leaves `Csrs.reset`. -/
theorem sresetClearsEveryRegister : Obligations.SresetClearsEveryRegister :=
  execSreset_cases

/-! ### Every event has a next state -/

theorem exists_exec_eq_next (i : Instr) (s : State) : ∃ t, exec i s = .next t := by
  by_cases hi : i = .sreset
  · subst hi
    exact ⟨_, execSreset_cases s⟩
  · rcases exec_ends i s hi with ⟨_, _, hfail⟩ | ⟨_, _, hdone, _⟩
    · exact ⟨_, hfail⟩
    · exact ⟨_, hdone⟩

theorem exists_runCommand_eq_next (op : Byte) (s : State) : ∃ t, runCommand op s = .next t := by
  cases hdec : decode op with
  | ok i => exact runCommand_of_decode_ok s hdec ▸ exists_exec_eq_next i s
  | error e => exact ⟨_, runCommand_of_decode_error s hdec⟩

theorem exists_hostWrite_eq_next (space index : Nat) (v : Dword) (s : State) :
    ∃ t, hostWrite space index v s = .next t := by
  cases hloc : decodeLocation s.params space index with
  | none => exact ⟨_, hostWrite_refused hloc⟩
  | some loc =>
    rw [hostWrite_of_location hloc]
    by_cases hcmd : loc = .csr .cmd
    · subst hcmd
      exact exists_runCommand_eq_next (v.setWidth 8) s
    · exact ⟨_, writeLocation_of_ne_cmd v s hcmd⟩

theorem exists_applyEvent_eq_next (e : HostEvent) (s : State) : ∃ t, applyEvent e s = .next t := by
  cases e with
  | read space index => exact ⟨_, rfl⟩
  | write space index v => exact exists_hostWrite_eq_next space index v s
  | reset => exact ⟨_, rfl⟩

/-! ### What an event leaves for the host -/

/-- The parameters, the events still to come and the values returned stay. -/
structure State.KeepsHost (s t : State) : Prop where
  params : t.params = s.params
  script : t.script = s.script
  returned : t.returned = s.returned

theorem keepsHost_failCommand {op : Byte} {e : ErrorCode} {s t : State} (h : failCommand op e s = .next t) :
    s.KeepsHost t := by
  obtain rfl := failCommand_next h
  exact ⟨rfl, rfl, rfl⟩

theorem keepsHost_exec {i : Instr} {s t : State} (h : exec i s = .next t) : s.KeepsHost t := by
  by_cases hi : i = .sreset
  · subst hi
    cases execSreset_cases s ▸ h
    exact ⟨rfl, rfl, rfl⟩
  · rcases exec_ends i s hi with ⟨_, _, hfail⟩ | ⟨_, _, hdone, _, _, _, hparams, _, _, hscript, hreturned⟩
    · exact keepsHost_failCommand (hfail ▸ h)
    · obtain rfl := completeCommand_next (hdone ▸ h)
      exact ⟨hparams, hscript, hreturned⟩

theorem keepsHost_runCommand {op : Byte} {s t : State} (h : runCommand op s = .next t) : s.KeepsHost t := by
  cases hdec : decode op with
  | ok i => exact keepsHost_exec (runCommand_of_decode_ok s hdec ▸ h)
  | error e => exact keepsHost_failCommand (runCommand_of_decode_error s hdec ▸ h)

theorem keepsHost_refuseAccess (s : State) : s.KeepsHost (refuseAccess s) := ⟨rfl, rfl, rfl⟩

theorem keepsHost_externalReset (s : State) : s.KeepsHost (externalReset s) := ⟨rfl, rfl, rfl⟩

/-- A host store reaches operand registers and buffer elements only (R44). -/
theorem keepsHost_store {s t : State} {v : Dword} {loc : Location} (h : s.store v loc = some t) : s.KeepsHost t := by
  cases loc with
  | csr r =>
    obtain ⟨_, _, rfl⟩ := Option.map_eq_some_iff.1 h
    exact ⟨rfl, rfl, rfl⟩
  | element b i => cases b <;> cases h <;> exact ⟨rfl, rfl, rfl⟩

/-- The parameters stay, and one value for each read among the events `es` has joined those returned before. -/
structure State.Answers (es : Script) (s t : State) : Prop where
  params : t.params = s.params
  returned : ∃ values, t.returned = s.returned ++ values ∧ values.length = (es.filter HostEvent.isRead).length

theorem State.Answers.nil (s : State) : State.Answers [] s s :=
  ⟨rfl, [], (List.append_nil _).symm, rfl⟩

theorem State.Answers.append {es es' : Script} {s t u : State} (h : State.Answers es s t)
    (h' : State.Answers es' t u) : State.Answers (es ++ es') s u := by
  obtain ⟨hparams, values, hreturned, hlength⟩ := h
  obtain ⟨hparams', values', hreturned', hlength'⟩ := h'
  refine ⟨hparams'.trans hparams, values ++ values', ?_, ?_⟩
  · rw [hreturned', hreturned, List.append_assoc]
  · rw [List.length_append, hlength, hlength', List.filter_append, List.length_append]

/-- What keeps the host's fields answers an event that is no read. -/
theorem State.KeepsHost.answers {s t : State} (h : s.KeepsHost t) {e : HostEvent} (he : e.isRead = false) :
    State.Answers [e] s t :=
  ⟨h.params, [], by rw [h.returned, List.append_nil], by rw [List.filter_singleton, he]; rfl⟩

/-- No event reaches the events after it, and a read, refused or not, returns one value (R43, R45). -/
theorem EventEffect.answers {e : HostEvent} {s t : State} (h : EventEffect s e t) :
    t.script = s.script ∧ State.Answers [e] s t := by
  cases h with
  | read => exact ⟨rfl, rfl, [_], rfl, rfl⟩
  | readRefused => exact ⟨rfl, rfl, [_], rfl, rfl⟩
  | stored _ hstore =>
    have hkeeps := keepsHost_store hstore
    exact ⟨hkeeps.script, hkeeps.answers rfl⟩
  | writeRefused => exact ⟨rfl, (keepsHost_refuseAccess s).answers rfl⟩
  | command hrun =>
    have hkeeps := keepsHost_runCommand hrun
    exact ⟨hkeeps.script, hkeeps.answers rfl⟩
  | reset => exact ⟨rfl, (keepsHost_externalReset s).answers rfl⟩

/-- The step of a pending event: there is a next state, and the event is answered and gone (R186). -/
theorem exists_step_answers {s : State} {e : HostEvent} {rest : Script} (hscript : s.script = e :: rest) :
    ∃ t, step s = .next t ∧ t.script = rest ∧ State.Answers [e] s t := by
  obtain ⟨t, happly⟩ := exists_applyEvent_eq_next e (s.setScript rest)
  obtain ⟨hrest, hparams, hreturned⟩ := (applyEvent_effect happly).answers
  exact ⟨t, (step_of_script_cons hscript).trans happly, hrest, hparams, hreturned⟩

/-! ### Runs -/

theorem runSteps_zero (s : State) : runSteps 0 s = .next s := rfl

theorem coreRun_succ_of_step {M : Host.Core} {s t : M.State} (h : M.step s = .next t) (k : Nat) :
    M.run (k + 1) s = M.run k t := by
  rw [Host.Core.run, h]

theorem runSteps_succ_of_step {s t : State} (h : step s = .next t) (k : Nat) :
    runSteps (k + 1) s = runSteps k t :=
  coreRun_succ_of_step (M := Sys2Proof.core) h k

/-- As many steps as there are pending events answer them all. -/
theorem exists_runSteps_answers (es : Script) (s : State) (hscript : s.script = es) :
    ∃ t, runSteps es.length s = .next t ∧ t.script = [] ∧ State.Answers es s t := by
  induction es generalizing s with
  | nil => exact ⟨s, runSteps_zero s, hscript, .nil s⟩
  | cons e rest ih =>
    obtain ⟨t, hstep, hrest, hfirst⟩ := exists_step_answers hscript
    obtain ⟨u, hrun, hend, hothers⟩ := ih t hrest
    exact ⟨u, (runSteps_succ_of_step hstep rest.length).trans hrun, hend, hfirst.append hothers⟩

/-- Settles O7, by induction on the pending events. -/
theorem everyScriptRunsToItsEnd : Obligations.EveryScriptRunsToItsEnd := by
  intro s
  obtain ⟨t, hrun, hend, hparams, values, hreturned, hlength⟩ := exists_runSteps_answers s.script s rfl
  exact ⟨t, hrun, hend, hparams, values, hreturned, hlength⟩

end Sys2Proof.Machine
end

section
/-! The function `crc16` (41_crc.md R100, R104): its recurrence, the shifts over a low end of zeros that give the
residue law, and that no iteration takes two values to one, so that no single-bit change is lost. -/

namespace Sys2Proof.Machine

/-! ### The recurrence -/

@[simp] theorem crc16_nil : crc16 [] = 0xFFFF#16 := rfl

theorem crc16_append (front back : List Byte) : crc16 (front ++ back) = back.foldl crcByte (crc16 front) :=
  List.foldl_append

theorem crc16_concat (bytes : List Byte) (b : Byte) : crc16 (bytes ++ [b]) = crcByte (crc16 bytes) b :=
  crc16_append bytes [b]

@[simp] theorem crcShifts_zero (c : Half) : crcShifts 0 c = c := rfl

theorem crcShifts_succ (k : Nat) (c : Half) : crcShifts (k + 1) c = crcShifts k (crcShift c) := rfl

theorem crcShifts_succ_last (k : Nat) (c : Half) : crcShifts (k + 1) c = crcShift (crcShifts k c) := by
  induction k generalizing c with
  | zero => rfl
  | succ k ih => rw [crcShifts_succ, ih, crcShifts_succ]

/-- Settles O25: the values are the model's iterations, counted. -/
theorem crc16FollowsItsRecurrence : Obligations.Crc16FollowsItsRecurrence :=
  ⟨crc16_nil, fun bytes b =>
    ⟨fun k => crcShifts k (crc16 bytes ^^^ b.setWidth 16), crcShifts_zero _, fun k _ => crcShifts_succ_last k _,
      crc16_concat bytes b⟩⟩

/-- Settles O26, by evaluation of the closed instances. -/
theorem crc16GivesTheListedValues : Obligations.Crc16GivesTheListedValues := by
  unfold Obligations.Crc16GivesTheListedValues
  decide +kernel

/-! ### The residue law -/

theorem crcShift_of_bit_zero_clear {c : Half} (h : c.getLsbD 0 = false) : crcShift c = c >>> 1 :=
  if_neg (Bool.eq_false_iff.1 h)

theorem crcShift_of_bit_zero_set {c : Half} (h : c.getLsbD 0 = true) : crcShift c = (c >>> 1) ^^^ 0xA001#16 :=
  if_pos h

/-- While only zeros are shifted out, 0xA001 is never applied. -/
theorem crcShifts_of_low_bits_clear {k : Nat} {c : Half} (h : ∀ i, i < k → c.getLsbD i = false) :
    crcShifts k c = c >>> k := by
  induction k generalizing c with
  | zero => simp
  | succ k ih =>
    have hrest : ∀ i, i < k → (c >>> 1).getLsbD i = false := fun i hi => by
      rw [BitVec.getLsbD_ushiftRight]
      exact h (1 + i) (by omega)
    rw [crcShifts_succ, crcShift_of_bit_zero_clear (h 0 (Nat.succ_pos k)), ih hrest, ← BitVec.shiftRight_add,
      Nat.add_comm]

/-- The low byte of the running value clears it, and the eight shifts move the high byte down. -/
theorem crcByte_loByte (c : Half) : crcByte c (loByte c) = (hiByte c).setWidth 16 := by
  have hclear : ∀ i, i < 8 → (c ^^^ (loByte c).setWidth 16).getLsbD i = false := fun i hi => by
    simp [loByte, hi, show i < 16 by omega]
  rw [crcByte, crcShifts_of_low_bits_clear hclear]
  refine BitVec.eq_of_getLsbD_eq fun i _ => ?_
  by_cases hi : i < 8
  · simp [loByte, hiByte, hi, show i < 16 by omega]
  · simp [loByte, hiByte, hi, BitVec.getLsbD_of_ge c (8 + i) (by omega)]

theorem crcByte_self (b : Byte) : crcByte (b.setWidth 16) b = 0#16 := by
  rw [crcByte, BitVec.xor_self, crcShifts_of_low_bits_clear fun _ _ => BitVec.getLsbD_zero, BitVec.zero_ushiftRight]

/-- Settles O27: the CRC's low byte leaves its high byte as the running value, and that byte leaves 0. -/
theorem crcOfAFrameWithItsCrcIsZero : Obligations.CrcOfAFrameWithItsCrcIsZero := by
  intro m
  calc crc16 (m ++ [loByte (crc16 m), hiByte (crc16 m)])
      = crcByte (crcByte (crc16 m) (loByte (crc16 m))) (hiByte (crc16 m)) := crc16_append m _
    _ = crcByte ((hiByte (crc16 m)).setWidth 16) (hiByte (crc16 m)) := by rw [crcByte_loByte]
    _ = 0 := crcByte_self _

/-! ### Single-bit changes -/

/-- Bit 15 after an iteration is the bit that was shifted out, since 0xA001 has bit 15 set. -/
theorem getLsbD_crcShift_fifteen (c : Half) : (crcShift c).getLsbD 15 = c.getLsbD 0 := by
  cases h : c.getLsbD 0 with
  | false => rw [crcShift_of_bit_zero_clear h]; simp
  | true => rw [crcShift_of_bit_zero_set h]; simp

/-- An iteration loses nothing: bit 15 tells the bit shifted out, and so whether 0xA001 was applied. -/
theorem crcShift_injective : Function.Injective crcShift := by
  intro c d h
  have hzero : c.getLsbD 0 = d.getLsbD 0 := by
    rw [← getLsbD_crcShift_fifteen, h, getLsbD_crcShift_fifteen]
  have hshift : c >>> 1 = d >>> 1 := by
    simp only [crcShift, hzero] at h
    split at h
    · exact (BitVec.xor_left_inj _).1 h
    · exact h
  refine BitVec.eq_of_getLsbD_eq fun i _ => ?_
  cases i with
  | zero => exact hzero
  | succ i =>
    have hbit := congrArg (BitVec.getLsbD · i) hshift
    simpa [Nat.add_comm] using hbit

theorem crcShifts_injective (k : Nat) : Function.Injective (crcShifts k) := by
  induction k with
  | zero => exact Function.injective_id
  | succ k ih => exact ih.comp crcShift_injective

theorem crcByte_left_injective (b : Byte) : Function.Injective (crcByte · b) := fun _ _ h =>
  (BitVec.xor_left_inj _).1 (crcShifts_injective 8 h)

theorem crcByte_right_injective (c : Half) : Function.Injective (crcByte c) := by
  intro b b' h
  have hwide : b.setWidth 16 = b'.setWidth 16 := (BitVec.xor_right_inj _).1 (crcShifts_injective 8 h)
  simpa using congrArg (BitVec.setWidth 8) hwide

/-- The same bytes take two running values to two. -/
theorem foldl_crcByte_injective (bytes : List Byte) : Function.Injective (bytes.foldl crcByte ·) := by
  induction bytes with
  | nil => exact Function.injective_id
  | cons b rest ih => exact ih.comp (crcByte_left_injective b)

/-- Two sequences that differ in one byte have two CRCs. -/
theorem crc16_ne_of_byte_ne (before after : List Byte) {b b' : Byte} (h : b ≠ b') :
    crc16 (before ++ b :: after) ≠ crc16 (before ++ b' :: after) := by
  rw [crc16_append, crc16_append]
  exact fun heq => h (crcByte_right_injective _ (foldl_crcByte_injective after heq))

theorem xor_bit_ne (b : Byte) {j : Nat} (hj : j < 8) : b ^^^ (1#8 <<< j) ≠ b := by
  intro h
  have hbit := congrArg (BitVec.getLsbD · j) h
  simp [hj] at hbit

/-- Settles O28: the flipped byte is another byte. -/
theorem crcDetectsEverySingleBitChange : Obligations.CrcDetectsEverySingleBitChange :=
  fun before after b _ hj => crc16_ne_of_byte_ne before after (xor_bit_ne b hj)

end Sys2Proof.Machine
end

section
/-! The CRC unit's commands (41_crc.md R101 to R103): the end of each under each outcome of its tests, in the order of
R168. -/

namespace Sys2Proof.Machine

/-! ### Ends and tests -/

/-- An error end as the statements write it (R163). -/
theorem failCommand_eq_afterError (op : Byte) (e : ErrorCode) (s : State) :
    failCommand op e s = .next (s.afterError op (errorNumber e)) := rfl

theorem State.lenTooLarge_iff {s : State} : s.lenTooLarge = true ↔ s.params.nb < s.lenOperand :=
  decide_eq_true_iff

theorem State.not_lenTooLarge_iff {s : State} : ¬ s.lenTooLarge = true ↔ s.lenOperand ≤ s.params.nb :=
  State.lenTooLarge_iff.not.trans Nat.not_lt

theorem State.crcMatches_iff_endsInCrc {s : State} {n : Nat} : s.crcMatches n = true ↔ s.endsInCrc n := by
  simp only [State.crcMatches, Bool.and_eq_true, decide_eq_true_eq]
  rfl

/-! ### CRC16 -/

/-- Settles O29. -/
theorem crc16CommandResult : Obligations.Crc16CommandResult := by
  intro s
  constructor
  · intro hfit
    calc exec .crc16 s
        = completeCommand .crc16 .none (s.setCsr { s.csr with crc := crc16 (s.ibBytes s.lenOperand) }) :=
          if_neg (State.not_lenTooLarge_iff.2 hfit)
      _ = _ := completeCommand_none .crc16 _
  · intro hlarge
    calc exec .crc16 s
        = failCommand (encode .crc16) .badLength s := if_pos (State.lenTooLarge_iff.2 hlarge)
      _ = _ := failCommand_eq_afterError _ _ s

/-! ### CRCAPP -/

/-- `OB` after a copy of `IB[0..n)` with `vs` appended. -/
theorem State.readOb_setOb_ibBytes_append (s : State) (n : Nat) (vs : List Byte) (k : Nat) :
    (s.setOb (s.ob.writeFrom 0 (s.ibBytes n ++ vs))).readOb k =
      if k < n then s.readIb k else if k < n + vs.length then vs.getD (k - n) 0 else s.readOb k := by
  rw [State.readOb_setOb_writeFrom, List.length_append, State.length_ibBytes]
  by_cases hcopied : k < n
  · rw [if_pos hcopied, if_pos (Nat.lt_add_right _ hcopied),
      List.getD_append _ _ _ _ (by rwa [State.length_ibBytes]), State.getD_ibBytes s hcopied]
  · rw [if_neg hcopied, List.getD_append_right _ _ _ _ (by simpa using hcopied), State.length_ibBytes]

/-- Settles O30: the written sequence is the copied bytes and the CRC's two. -/
theorem crcappCommandResult : Obligations.CrcappCommandResult := by
  intro s
  constructor
  · intro hfit
    refine ⟨_, (if_neg (Nat.not_lt.2 hfit)).trans (completeCommand_none .crcapp _), rfl, fun k => ?_⟩
    refine (State.readOb_setOb_ibBytes_append s s.lenOperand (crcBytes (crc16 (s.ibBytes s.lenOperand))) k).trans ?_
    by_cases hcopied : k < s.lenOperand
    · rw [if_pos hcopied, if_pos hcopied]
    rw [if_neg hcopied, if_neg hcopied, length_crcBytes]
    by_cases hlow : k = s.lenOperand
    · subst hlow
      simp [crcBytes, loByte]
    by_cases hhigh : k = s.lenOperand + 1
    · subst hhigh
      simp [crcBytes, hiByte]
    · rw [if_neg hlow, if_neg hhigh, if_neg (by omega)]
  · intro hlarge
    calc exec .crcapp s
        = failCommand (encode .crcapp) .badLength s := if_pos hlarge
      _ = _ := failCommand_eq_afterError _ _ s

/-! ### CRCVFY -/

/-- With the length in its bounds, the comparison alone decides. -/
theorem execCrcvfy_of_length_legal {s : State} (hfit : s.lenOperand ≤ s.params.nb) (htwo : 2 ≤ s.lenOperand) :
    exec .crcvfy s =
      if s.crcMatches s.lenOperand then
        completeCommand .crcvfy .none (s.setCsr { s.csr with crc := s.frameCrc s.lenOperand })
      else failCommand (encode .crcvfy) .crcMismatch s :=
  (if_neg (State.not_lenTooLarge_iff.2 hfit)).trans (if_neg (Nat.not_lt.2 htwo))

/-- Settles O31, test by test. -/
theorem crcvfyCommandResult : Obligations.CrcvfyCommandResult := by
  intro s
  refine ⟨fun hlarge => ?_, fun hfit hshort => ?_, fun hfit htwo hcrc => ?_, fun hfit htwo hcrc => ?_⟩
  · calc exec .crcvfy s
        = failCommand (encode .crcvfy) .badLength s := if_pos (State.lenTooLarge_iff.2 hlarge)
      _ = _ := failCommand_eq_afterError _ _ s
  · calc exec .crcvfy s
        = failCommand (encode .crcvfy) .tooShort s :=
          (if_neg (State.not_lenTooLarge_iff.2 hfit)).trans (if_pos hshort)
      _ = _ := failCommand_eq_afterError _ _ s
  · rw [execCrcvfy_of_length_legal hfit htwo, if_neg (mt State.crcMatches_iff_endsInCrc.1 hcrc)]
    exact failCommand_eq_afterError _ _ s
  · rw [execCrcvfy_of_length_legal hfit htwo, if_pos (State.crcMatches_iff_endsInCrc.2 hcrc)]
    exact completeCommand_none .crcvfy _

end Sys2Proof.Machine
end

section
/-! The FRAME unit's commands (42_frame.md R110 to R121): the request that the two builders leave in `OB`, and the ends
of PARSE, its tests in the order of R168 and then the branches by the function byte. -/

namespace Sys2Proof.Machine

/-! ### BLDRD and BLDWR -/

/-- `OB` after a frame builder (R110, R111): the request, and the old bytes behind it. -/
theorem State.readOb_buildFrame (s : State) (function : Byte) (k : Nat) :
    (s.buildFrame function).readOb k =
      if k < 8 then (requestFrame s.csr.slave function s.csr.addr s.csr.data).getD k 0 else s.readOb k :=
  (s.readOb_setOb_writeFrom _ k).trans (by rw [length_requestFrame])

/-- What the two builders share: the function byte is all they differ in. -/
theorem exists_request_of_exec_eq {i : Instr} {function : Byte} {s : State} {c : Half}
    (hexec : exec i s = completeCommand i .none (s.buildFrame function))
    (hc : c = crc16 (requestBody s.csr.slave function s.csr.addr s.csr.data)) :
    ∃ t, exec i s = .next t ∧
      t = { s with ob := t.ob, csr := { s.csr with cmd := encode i, status := 0x00, crc := c, rlen := 8 } } ∧
      t.readOb 0 = s.csr.slave ∧ t.readOb 1 = function ∧ t.readOb 2 = hiByte s.csr.addr ∧
      t.readOb 3 = loByte s.csr.addr ∧ t.readOb 4 = hiByte s.csr.data ∧ t.readOb 5 = loByte s.csr.data ∧
      t.readOb 6 = loByte c ∧ t.readOb 7 = hiByte c ∧ ∀ k, 8 ≤ k → t.readOb k = s.readOb k := by
  subst hc
  have hbyte : ∀ k, k < 8 → (s.buildFrame function).readOb k =
      (requestFrame s.csr.slave function s.csr.addr s.csr.data).getD k 0 := fun k hk =>
    (s.readOb_buildFrame function k).trans (if_pos hk)
  refine ⟨_, hexec.trans (completeCommand_none i _), rfl, hbyte 0 (by decide), hbyte 1 (by decide),
    hbyte 2 (by decide), hbyte 3 (by decide), hbyte 4 (by decide), hbyte 5 (by decide), hbyte 6 (by decide),
    hbyte 7 (by decide), fun k hk => ?_⟩
  exact (s.readOb_buildFrame function k).trans (if_neg (Nat.not_lt.2 hk))

/-- Settles O32: the builder with function byte 0x03. -/
theorem bldrdCommandResult : Obligations.BldrdCommandResult :=
  fun s _ hc => exists_request_of_exec_eq (execBldrd_cases s) hc

/-- Settles O33: the builder with function byte 0x06. -/
theorem bldwrCommandResult : Obligations.BldwrCommandResult :=
  fun s _ hc => exists_request_of_exec_eq (execBldwr_cases s) hc

/-! ### The tests of PARSE before any content -/

/-- With the length in its bounds, the CRC is tested next, and the function byte is looked at last (R114). -/
theorem execParse_of_length_legal {s : State} (hfit : s.lenOperand ≤ s.params.nb) (hfour : 4 ≤ s.lenOperand) :
    exec .parse s =
      if !s.crcMatches s.lenOperand then failCommand (encode .parse) .crcMismatch s
      else if (s.readIb 1).getLsbD 7 then parseException s.lenOperand s
      else if s.readIb 1 = 0x03 then parseRegisters s.lenOperand s
      else parseOther s.lenOperand s :=
  (if_neg (State.not_lenTooLarge_iff.2 hfit)).trans (if_neg (Nat.not_lt.2 hfour))

/-- Settles O34, test by test. -/
theorem parseTestsLengthThenCrc : Obligations.ParseTestsLengthThenCrc := by
  intro s
  refine ⟨fun hlarge => ?_, fun hfit hshort => ?_, fun hfit hfour hcrc => ?_⟩
  · calc exec .parse s
        = failCommand (encode .parse) .badLength s := if_pos (State.lenTooLarge_iff.2 hlarge)
      _ = _ := failCommand_eq_afterError _ _ s
  · calc exec .parse s
        = failCommand (encode .parse) .tooShort s :=
          (if_neg (State.not_lenTooLarge_iff.2 hfit)).trans (if_pos hshort)
      _ = _ := failCommand_eq_afterError _ _ s
  · have hmismatch : (!s.crcMatches s.lenOperand) = true := by
      simpa using mt State.crcMatches_iff_endsInCrc.1 hcrc
    rw [execParse_of_length_legal hfit hfour, if_pos hmismatch]
    exact failCommand_eq_afterError _ _ s

/-! ### The branches of PARSE -/

/-- Behind the length and CRC tests, the function byte alone picks the branch. -/
theorem execParse_of_endsInCrc {s : State} (hfit : s.lenOperand ≤ s.params.nb) (hfour : 4 ≤ s.lenOperand)
    (hcrc : s.endsInCrc s.lenOperand) :
    exec .parse s =
      if (s.readIb 1).getLsbD 7 then parseException s.lenOperand s
      else if s.readIb 1 = 0x03 then parseRegisters s.lenOperand s
      else parseOther s.lenOperand s := by
  have hmatch : ¬ (!s.crcMatches s.lenOperand) = true := by
    simpa using State.crcMatches_iff_endsInCrc.2 hcrc
  rw [execParse_of_length_legal hfit hfour, if_neg hmatch]

/-- Settles O35: the code is byte 2, so a frame of 4 bytes, whose byte 2 is its CRC's, has none. -/
theorem parseOfExceptionResponse : Obligations.ParseOfExceptionResponse := by
  intro s hfit hfour hcrc hbit
  have hexec : exec .parse s = parseException s.lenOperand s :=
    (execParse_of_endsInCrc hfit hfour hcrc).trans (if_pos hbit)
  refine ⟨fun hlen => ?_, fun hfive => ?_⟩
  · calc exec .parse s
        = failCommand (encode .parse) .tooShort s := hexec.trans (if_pos (by omega))
      _ = _ := failCommand_eq_afterError _ _ s
  · calc exec .parse s
        = acceptResponse s.lenOperand .exception 0 (s.readIb 2) (excReason s.params (s.readIb 2)) s :=
          hexec.trans (if_neg (Nat.not_lt.2 hfive))
      _ = _ := rfl

/-- Settles O37: neither test of the function byte holds, and no more of the frame is looked at. -/
theorem parseOfOtherResponse : Obligations.ParseOfOtherResponse := by
  intro s hfit hfour hcrc hbit hfunction
  calc exec .parse s
      = parseOther s.lenOperand s := by
        rw [execParse_of_endsInCrc hfit hfour hcrc, if_neg (Bool.eq_false_iff.1 hbit), if_neg hfunction]
    _ = _ := rfl

/-! ### Read responses -/

theorem toNat_joinBytes (hi lo : Byte) : (joinBytes hi lo).toNat = hi.toNat * 256 + lo.toNat := by
  rw [joinBytes, BitVec.toNat_append, ← Nat.shiftLeft_add_eq_or_of_lt lo.isLt, Nat.shiftLeft_eq]

/-- `REG` after the first `count` registers of a response are written to it (R119). -/
theorem State.readReg_setReg_responseRegisters (s : State) (count k : Nat) :
    (s.setReg (s.reg.writeFrom 0 ((List.range count).map s.responseRegister))).readReg k =
      if k < count then s.responseRegister k else s.readReg k := by
  rw [State.readReg_setReg_writeFrom, List.length_map, List.length_range]
  by_cases hk : k < count
  · simp [hk]
  · rw [if_neg hk, if_neg hk]

/-- The function byte 0x03 has bit 7 clear. -/
theorem execParse_of_function_three {s : State} (hfit : s.lenOperand ≤ s.params.nb) (hfour : 4 ≤ s.lenOperand)
    (hcrc : s.endsInCrc s.lenOperand) (hfunction : s.readIb 1 = 0x03) :
    exec .parse s = parseRegisters s.lenOperand s := by
  have hbit : ¬ (s.readIb 1).getLsbD 7 = true := by rw [hfunction]; decide
  rw [execParse_of_endsInCrc hfit hfour hcrc, if_neg hbit, if_pos hfunction]

/-- With a byte count, its two tests decide (R117, R118). -/
theorem parseRegisters_of_five_le {n : Nat} {s : State} (hfive : 5 ≤ n) :
    parseRegisters n s =
      if (s.readIb 2).toNat ≠ n - 5 ∨ (s.readIb 2).toNat % 2 = 1 then failCommand (encode .parse) .badByteCount s
      else acceptResponse n .registers ((s.readIb 2).toNat / 2) 0 0
        (s.setReg (s.reg.writeFrom 0 ((List.range ((s.readIb 2).toNat / 2)).map s.responseRegister))) := by
  rw [parseRegisters, if_neg (Nat.not_lt.2 hfive), ite_or]

/-- Settles O36: a byte count that passes its tests is `LEN - 5` and even, and each of its pairs of bytes is a register,
high byte first. -/
theorem parseOfReadResponse : Obligations.ParseOfReadResponse := by
  intro s count hfit hfour hcrc hfunction hcount
  subst hcount
  have hexec := execParse_of_function_three hfit hfour hcrc hfunction
  refine ⟨fun hlen => ?_, fun hfive hbad => ?_, fun hfive hlen heven => ?_⟩
  · calc exec .parse s
        = failCommand (encode .parse) .tooShort s := hexec.trans (if_pos (by omega))
      _ = _ := failCommand_eq_afterError _ _ s
  · rw [hexec, parseRegisters_of_five_le hfive, if_pos hbad]
    exact failCommand_eq_afterError _ _ s
  · have hgood : ¬ ((s.readIb 2).toNat ≠ s.lenOperand - 5 ∨ (s.readIb 2).toNat % 2 = 1) := by omega
    refine ⟨_, hexec.trans ((parseRegisters_of_five_le hfive).trans (if_neg hgood)), ?_, fun k => ?_⟩
    · rw [← hfunction]
      rfl
    have hreg := s.readReg_setReg_responseRegisters ((s.readIb 2).toNat / 2) k
    refine ⟨fun hk => ?_, fun hk => hreg.trans (if_neg (Nat.not_lt.2 hk))⟩
    exact (congrArg BitVec.toNat (hreg.trans (if_pos hk))).trans (toNat_joinBytes _ _)

end Sys2Proof.Machine
end

section
/-! The DELTA unit (43_delta.md R130 to R135): the differences and the running sums undo each other, as exact numbers
and then as patterns, and the two commands stand in this relation between `SER` and `DLT`. -/

namespace Sys2Proof.Machine

/-! ### Exact numbers -/

theorem exactDeltas_eq_differencesFrom_zero (series : List Dword) : exactDeltas series = differencesFrom 0 series := by
  cases series with
  | nil => rfl
  | cons x rest => simp [exactDeltas, differencesFrom]

theorem exactSums_eq_sumsFrom_zero (deltas : List Word) : exactSums deltas = sumsFrom 0 deltas := by
  cases deltas with
  | nil => rfl
  | cons d rest => simp [exactSums, sumsFrom]

/-- R134 in the exact numbers: a series has the running sums of the deltas exactly when they are its differences. -/
theorem map_toInt_eq_sumsFrom_iff (series : List Dword) (deltas : List Word) (p : Int) :
    series.map BitVec.toInt = sumsFrom p deltas ↔ deltas.map BitVec.toInt = differencesFrom p series := by
  induction deltas generalizing series p with
  | nil => cases series <;> simp [sumsFrom, differencesFrom]
  | cons d rest ih =>
    cases series with
    | nil => simp [sumsFrom, differencesFrom]
    | cons x xs =>
      have hhead : x.toInt = p + d.toInt ↔ d.toInt = x.toInt - p := by omega
      simp only [sumsFrom, differencesFrom, List.map_cons, List.cons.injEq, hhead]
      refine and_congr_right fun hd => ?_
      rw [hhead.2 hd]
      exact ih xs (p + d.toInt)

theorem map_toInt_eq_exactSums_iff {series : List Dword} {deltas : List Word} :
    series.map BitVec.toInt = exactSums deltas ↔ deltas.map BitVec.toInt = exactDeltas series := by
  rw [exactSums_eq_sumsFrom_zero, exactDeltas_eq_differencesFrom_zero]
  exact map_toInt_eq_sumsFrom_iff series deltas 0

theorem getElem_differencesFrom_succ (series : List Dword) (p : Int) (k : Nat) (h : k + 1 < series.length) :
    (differencesFrom p series)[k + 1]'(by rwa [length_differencesFrom]) = series[k + 1].toInt - series[k].toInt := by
  induction series generalizing p k with
  | nil => cases h
  | cons x rest ih =>
    cases rest with
    | nil => simp at h
    | cons y rest =>
      cases k with
      | zero => rfl
      | succ k => exact ih x.toInt k (Nat.lt_of_succ_lt_succ h)

/-- The exact deltas of `SER[0..n)`, element by element. -/
theorem State.exactDeltas_serElements (s : State) (n : Nat) :
    exactDeltas (s.serElements n) = (List.range n).map s.exactDelta := by
  rw [exactDeltas_eq_differencesFrom_zero]
  refine List.ext_getElem (by simp [length_differencesFrom]) fun k hk _ => ?_
  rw [length_differencesFrom] at hk
  cases k with
  | zero =>
    obtain ⟨m, rfl⟩ : ∃ m, n = m + 1 := Nat.exists_eq_succ_of_ne_zero (by rintro rfl; simp at hk)
    simp [State.serElements, List.range_succ_eq_map, differencesFrom, State.exactDelta]
  | succ k =>
    rw [getElem_differencesFrom_succ _ _ k hk]
    simp [State.serElements, State.exactDelta]

/-! ### Patterns -/

theorem fitsI32_iff (z : Int) : fitsI32 z = true ↔ -2 ^ 31 ≤ z ∧ z < 2 ^ 31 := by
  simp only [fitsI32, Bool.and_eq_true, decide_eq_true_eq]
  omega

theorem fitsI32_toInt (d : Word) : fitsI32 d.toInt = true :=
  (fitsI32_iff _).2 ⟨d.le_toInt, d.toInt_lt⟩

theorem toInt_ofInt_of_fitsI32 {z : Int} (h : fitsI32 z = true) : (BitVec.ofInt 32 z).toInt = z := by
  obtain ⟨hlow, hhigh⟩ := (fitsI32_iff z).1 h
  exact BitVec.toInt_ofInt_eq_self (by decide) hlow hhigh

theorem map_toInt_map_ofInt {w : Nat} {zs : List Int} (h : ∀ z, z ∈ zs → (BitVec.ofInt w z).toInt = z) :
    (zs.map (BitVec.ofInt w)).map BitVec.toInt = zs := by
  rw [List.map_map]
  exact (List.map_congr_left h).trans (List.map_id zs)

theorem map_ofInt_map_toInt {w : Nat} (vs : List (BitVec w)) : (vs.map BitVec.toInt).map (BitVec.ofInt w) = vs := by
  simp [Function.comp_def]

/-- The encoding of a series is the sequence of words with its exact deltas; where no words have them, it is RANGE. -/
theorem deltaEncode_eq_some_iff {series : List Dword} {deltas : List Word} :
    deltaEncode series = some deltas ↔ deltas.map BitVec.toInt = exactDeltas series := by
  constructor
  · intro h
    simp only [deltaEncode, Option.ite_none_right_eq_some, Option.some.injEq] at h
    obtain ⟨hfits, rfl⟩ := h
    exact map_toInt_map_ofInt fun z hz => toInt_ofInt_of_fitsI32 (List.all_eq_true.1 hfits z hz)
  · intro h
    have hfits : (exactDeltas series).all fitsI32 = true := by
      rw [← h, List.all_map]
      exact List.all_eq_true.2 fun d _ => fitsI32_toInt d
    rw [deltaEncode, if_pos hfits, ← h, map_ofInt_map_toInt]

theorem deltaDecode_eq_of_map_toInt_eq {series : List Dword} {deltas : List Word}
    (h : series.map BitVec.toInt = exactSums deltas) : deltaDecode deltas = series := by
  rw [deltaDecode, ← h, map_ofInt_map_toInt]

/-- Settles O41: the encoding's words are the differences, so the series has their running sums. -/
theorem deltaDecodeInvertsEncode : Obligations.DeltaDecodeInvertsEncode := fun _ _ h =>
  deltaDecode_eq_of_map_toInt_eq (map_toInt_eq_exactSums_iff.2 (deltaEncode_eq_some_iff.1 h))

/-- A delta moves the running sum by at most `2 ^ 31` (R135). -/
theorem bounds_of_mem_sumsFrom {deltas : List Word} {p z : Int} (h : z ∈ sumsFrom p deltas) :
    p - 2 ^ 31 * deltas.length ≤ z ∧ z ≤ p + 2 ^ 31 * deltas.length := by
  induction deltas generalizing p with
  | nil => cases h
  | cons d rest ih =>
    have hlow : -2 ^ 31 ≤ d.toInt := d.le_toInt
    have hhigh : d.toInt < 2 ^ 31 := d.toInt_lt
    rw [List.length_cons]
    rcases List.mem_cons.1 h with rfl | hrest
    · omega
    · have := ih hrest
      omega

/-- No running sum of a sequence that a buffer can hold leaves `i64` (R135). -/
theorem map_toInt_deltaDecode {deltas : List Word} (h : deltas.length ≤ 65535) :
    (deltaDecode deltas).map BitVec.toInt = exactSums deltas := by
  refine map_toInt_map_ofInt fun z hz => ?_
  rw [exactSums_eq_sumsFrom_zero] at hz
  have hbounds := bounds_of_mem_sumsFrom hz
  exact BitVec.toInt_ofInt_eq_self (by decide) (by omega) (by omega)

/-- Settles O42: the decoding has the running sums, so the deltas are its differences. -/
theorem deltaEncodeInvertsDecode : Obligations.DeltaEncodeInvertsDecode := fun _ h =>
  deltaEncode_eq_some_iff.2 (map_toInt_eq_exactSums_iff.1 (map_toInt_deltaDecode h))

/-! ### The series and deltas in the buffers -/

/-- The words in `DLT[0..n)` are the encoding of `SER[0..n)` exactly when each is the exact delta. -/
theorem deltaEncode_serElements_eq_some_dltElements_iff {s t : State} {n : Nat} :
    deltaEncode (s.serElements n) = some (t.dltElements n) ↔ ∀ k, k < n → (t.readDlt k).toInt = s.exactDelta k := by
  rw [deltaEncode_eq_some_iff, State.exactDeltas_serElements, State.dltElements, List.map_map, List.map_inj_left]
  simp

theorem deltaEncode_serElements_eq_none_iff {s : State} {n : Nat} :
    deltaEncode (s.serElements n) = none ↔
      ∃ k, k < n ∧ (s.exactDelta k < -2 ^ 31 ∨ 2 ^ 31 - 1 < s.exactDelta k) := by
  simp [deltaEncode, State.exactDeltas_serElements, fitsI32, imp_iff_not_or]

/-! ### Operands and written ranges -/

theorem State.cntTooLarge_iff {s : State} : s.cntTooLarge = true ↔ s.params.nw < s.cntOperand :=
  decide_eq_true_iff

theorem State.not_cntTooLarge_iff {s : State} : ¬ s.cntTooLarge = true ↔ s.cntOperand ≤ s.params.nw :=
  State.cntTooLarge_iff.not.trans Nat.not_lt

/-- A count reported in `RCNT` is `CNT` itself. -/
theorem State.ofNat_cntOperand (s : State) : BitVec.ofNat 16 s.cntOperand = s.csr.cnt := by
  simp [State.cntOperand]

theorem State.dltElements_setDlt_writeFrom (s : State) {vs : List Word} {n : Nat} (h : vs.length = n) :
    (s.setDlt (s.dlt.writeFrom 0 vs)).dltElements n = vs := by
  subst h
  refine List.ext_getElem (by simp) fun k _ hk => ?_
  simp [State.dltElements, State.readDlt_setDlt_writeFrom, hk]

theorem State.serElements_setSer_writeFrom (s : State) {vs : List Dword} {n : Nat} (h : vs.length = n) :
    (s.setSer (s.ser.writeFrom 0 vs)).serElements n = vs := by
  subst h
  refine List.ext_getElem (by simp) fun k _ hk => ?_
  simp [State.serElements, State.readSer_setSer_writeFrom, hk]

/-! ### DENC and DDEC -/

theorem execDenc_of_range {s : State} (hfit : s.cntOperand ≤ s.params.nw)
    (henc : deltaEncode (s.serElements s.cntOperand) = none) :
    exec .denc s = failCommand (encode .denc) .range s := by
  simp [exec, execDenc, State.not_cntTooLarge_iff.2 hfit, henc]

/-- A successful DENC: its frame, and the encoding in `DLT` (R132). -/
theorem exists_encoded_of_deltaEncode {s : State} {deltas : List Word} (hfit : s.cntOperand ≤ s.params.nw)
    (henc : deltaEncode (s.serElements s.cntOperand) = some deltas) :
    ∃ t, exec .denc s = .next t ∧
      t = { s with dlt := t.dlt, csr := { s.csr with cmd := 0x30, status := 0x00, rcnt := s.csr.cnt } } ∧
      t.dltElements s.cntOperand = deltas ∧ ∀ k, s.cntOperand ≤ k → t.readDlt k = s.readDlt k := by
  have hexec : exec .denc s = completeCommand .denc .none
      ((s.setDlt (s.dlt.writeFrom 0 deltas)).setCsr { s.csr with rcnt := s.csr.cnt }) := by
    simp [exec, execDenc, State.not_cntTooLarge_iff.2 hfit, henc, State.ofNat_cntOperand]
  have hlen : deltas.length = s.cntOperand := by simpa using length_of_deltaEncode henc
  refine ⟨_, hexec.trans (completeCommand_none .denc _), rfl, s.dltElements_setDlt_writeFrom hlen, fun k hk => ?_⟩
  exact (s.readDlt_setDlt_writeFrom deltas k).trans (if_neg (by omega))

/-- A successful DDEC: its frame, and the decoding in `SER` (R133). -/
theorem exists_decoded_of_count_legal {s : State} (hfit : s.cntOperand ≤ s.params.nw) :
    ∃ t, exec .ddec s = .next t ∧
      t = { s with ser := t.ser, csr := { s.csr with cmd := 0x31, status := 0x00, rcnt := s.csr.cnt } } ∧
      t.serElements s.cntOperand = deltaDecode (s.dltElements s.cntOperand) ∧
      ∀ k, s.cntOperand ≤ k → t.readSer k = s.readSer k := by
  have hexec : exec .ddec s = completeCommand .ddec .none
      ((s.setSer (s.ser.writeFrom 0 (deltaDecode (s.dltElements s.cntOperand)))).setCsr
        { s.csr with rcnt := s.csr.cnt }) := by
    simp [exec, execDdec, State.not_cntTooLarge_iff.2 hfit, State.ofNat_cntOperand]
  have hlen : (deltaDecode (s.dltElements s.cntOperand)).length = s.cntOperand := by simp
  refine ⟨_, hexec.trans (completeCommand_none .ddec _), rfl, s.serElements_setSer_writeFrom hlen, fun k hk => ?_⟩
  exact (s.readSer_setSer_writeFrom _ k).trans (if_neg (by omega))

/-- Settles O39: the encoding is RANGE exactly when an exact delta does not fit, and its words are the exact deltas. -/
theorem dencCommandResult : Obligations.DencCommandResult := by
  intro s
  refine ⟨fun hlarge => ?_, fun hfit hrange => ?_, fun hfit hfits => ?_⟩
  · calc exec .denc s
        = failCommand (encode .denc) .badLength s := if_pos (State.cntTooLarge_iff.2 hlarge)
      _ = _ := failCommand_eq_afterError _ _ s
  · calc exec .denc s
        = failCommand (encode .denc) .range s :=
          execDenc_of_range hfit (deltaEncode_serElements_eq_none_iff.2 hrange)
      _ = _ := failCommand_eq_afterError _ _ s
  · cases henc : deltaEncode (s.serElements s.cntOperand) with
    | none =>
      obtain ⟨k, hk, hout⟩ := deltaEncode_serElements_eq_none_iff.1 henc
      have := hfits k hk
      omega
    | some deltas =>
      obtain ⟨t, hexec, hframe, hdlt, htail⟩ := exists_encoded_of_deltaEncode hfit henc
      rw [← hdlt, deltaEncode_serElements_eq_some_dltElements_iff] at henc
      exact ⟨t, hexec, hframe, fun k => ⟨henc k, htail k⟩⟩

/-- Settles O40: `DLT` is the encoding of the series that DDEC leaves, so its words are that series' differences. -/
theorem ddecCommandResult : Obligations.DdecCommandResult := by
  intro s
  refine ⟨fun hlarge => ?_, fun hfit => ?_⟩
  · calc exec .ddec s
        = failCommand (encode .ddec) .badLength s := if_pos (State.cntTooLarge_iff.2 hlarge)
      _ = _ := failCommand_eq_afterError _ _ s
  · obtain ⟨t, hexec, hframe, hser, htail⟩ := exists_decoded_of_count_legal hfit
    have hcnt : (s.dltElements s.cntOperand).length ≤ 65535 := by
      rw [State.length_dltElements]
      exact Nat.le_of_lt_succ s.csr.cnt.isLt
    have hdelta := deltaEncodeInvertsDecode _ hcnt
    rw [← hser, deltaEncode_serElements_eq_some_dltElements_iff] at hdelta
    refine ⟨t, hexec, hframe, fun hpos => (hdelta 0 hpos).symm, fun k hk => ?_, htail⟩
    have hstep : (s.readDlt (k + 1)).toInt = (t.readSer (k + 1)).toInt - (t.readSer k).toInt := hdelta (k + 1) hk
    omega

/-- An error-free DENC leaves the encoding of `SER[0..CNT)` in `DLT[0..CNT)`. -/
theorem deltaEncode_of_exec_denc {s t : State} (h : exec .denc s = .next t) (hok : statusErr t.csr.status = 0) :
    s.cntOperand ≤ s.params.nw ∧
      deltaEncode (s.serElements s.cntOperand) = some (t.dltElements s.cntOperand) := by
  rcases execDenc_cases s with ⟨e, _, hfail⟩ | ⟨deltas, hfit, henc, _⟩
  · obtain rfl := failCommand_next (hfail.symm.trans h)
    exact absurd hok (statusErr_statusOfError_ne_zero e)
  · obtain ⟨t', hexec, _, hdlt, _⟩ := exists_encoded_of_deltaEncode hfit henc
    obtain rfl : t' = t := Host.Outcome.next.inj (hexec.symm.trans h)
    exact ⟨hfit, hdlt ▸ henc⟩

/-- Settles O43: DDEC decodes the words of DENC's encoding, which gives the series back (R134). -/
theorem dencThenDdecRestoresTheSeries : Obligations.DencThenDdecRestoresTheSeries := by
  intro s t u v hdenc hok hparams hcnt hdlt hddec
  obtain ⟨hfit, henc⟩ := deltaEncode_of_exec_denc hdenc hok
  have hcount : u.cntOperand = s.cntOperand := congrArg BitVec.toNat hcnt
  have hfitU : u.cntOperand ≤ u.params.nw := by rwa [hcount, hparams, (keepsHost_exec hdenc).params]
  obtain ⟨v', hexec, hframe, hser, _⟩ := exists_decoded_of_count_legal hfitU
  obtain rfl : v' = v := Host.Outcome.next.inj (hexec.symm.trans hddec)
  have hstatus : v'.csr.status = 0x00 := congrArg (·.csr.status) hframe
  have hseries : v'.serElements s.cntOperand = s.serElements s.cntOperand := by
    rw [← hcount, hser, hcount, State.dltElements_congr hdlt]
    exact deltaDecodeInvertsEncode _ _ henc
  refine ⟨by rw [hstatus]; decide, fun k hk => ?_⟩
  rw [← State.getD_serElements v' hk, hseries, State.getD_serElements s hk]

end Sys2Proof.Machine
end

section
/-! The VARINT unit's functions (44_varint.md R140 to R143, R150, R152, R153): zigzag and unzigzag undo each other, and
so do the encoder and the decoder of one varint and of a stream. -/

namespace Sys2Proof.Machine

/-! ### Zigzag and unzigzag -/

theorem unzigzag_of_even {u : Word} (h : u.getLsbD 0 = false) : unzigzag u = u >>> 1 :=
  if_neg (Bool.eq_false_iff.1 h)

theorem unzigzag_of_odd {u : Word} (h : u.getLsbD 0 = true) : unzigzag u = ~~~(u >>> 1) := by
  have hones : (0xFFFFFFFF#32) = BitVec.allOnes 32 := by decide
  rw [unzigzag, if_pos h, hones, BitVec.xor_allOnes]

theorem unzigzag_zigzag (p : Word) : unzigzag (zigzag p) = p := by
  cases hsign : p.msb with
  | false =>
    have hlt := BitVec.toNat_lt_of_msb_false hsign
    rw [zigzag_of_msb_false hsign, unzigzag_of_even (by simp)]
    bv_omega
  | true =>
    have hge := BitVec.toNat_ge_of_msb_true hsign
    rw [zigzag_of_msb_true hsign, unzigzag_of_odd (by simp)]
    bv_omega

/-- Settles O45: zigzag is injective, since unzigzag undoes it, so it meets every one of the finitely many patterns. -/
theorem zigzagAndUnzigzagAreInverse : Obligations.ZigzagAndUnzigzagAreInverse := by
  have hleft : Function.LeftInverse unzigzag zigzag := unzigzag_zigzag
  have hfinite : Finite Word := Finite.of_injective BitVec.toFin fun _ _ => BitVec.eq_of_toFin_eq
  exact ⟨hleft, hleft.rightInverse_of_surjective (Finite.surjective_of_injective hleft.injective)⟩

/-! ### The decoder's loop -/

/-- The decoder's value with the low 7 bits of the byte at place `k` put in (R143). -/
def withGroup (v : Word) (k : Nat) (x : Byte) : Word := v ||| ((x.extractLsb' 0 7).setWidth 32 <<< (7 * k))

theorem toNat_withGroup_lt {v : Word} {k : Nat} (hv : v.toNat < 2 ^ (7 * k)) (x : Byte) :
    (withGroup v k x).toNat < 2 ^ (7 * (k + 1)) := by
  have hold : v.toNat < 2 ^ (7 * (k + 1)) := hv.trans_le (Nat.pow_le_pow_right (by decide) (by omega))
  have hnew : ((x.extractLsb' 0 7).setWidth 32 <<< (7 * k)).toNat < 2 ^ (7 * (k + 1)) := by
    generalize x.extractLsb' 0 7 = group
    calc (group.setWidth 32 <<< (7 * k)).toNat
        ≤ group.toNat * 2 ^ (7 * k) := by
          rw [BitVec.toNat_shiftLeft, BitVec.toNat_setWidth_of_le (by decide), Nat.shiftLeft_eq]
          exact Nat.mod_le _ _
      _ < 2 ^ 7 * 2 ^ (7 * k) := Nat.mul_lt_mul_of_pos_right group.isLt (by positivity)
      _ = 2 ^ (7 * (k + 1)) := by ring
  exact (BitVec.toNat_or ..).trans_lt (Nat.or_lt_two_pow hold hnew)

theorem extractLsb'_withGroup_of_lt {j k : Nat} (hj : j < k) (v : Word) (x : Byte) :
    (withGroup v k x).extractLsb' (7 * j) 7 = v.extractLsb' (7 * j) 7 := by
  apply BitVec.eq_of_getLsbD_eq
  intro i hi
  have hbelow : 7 * j + i < 7 * k := by omega
  simp [withGroup, hi, hbelow]

/-- The group put in is the byte's low 7 bits: the fifth byte loses none, since its bits 6:4 are 0 (R143 (c), R154). -/
theorem extractLsb'_withGroup_self {v : Word} {k : Nat} {x : Byte} (hk : k < 5) (hv : v.toNat < 2 ^ (7 * k))
    (hfits : k = 4 → x.extractLsb' 4 3 = 0#3) : (withGroup v k x).extractLsb' (7 * k) 7 = x.extractLsb' 0 7 := by
  apply BitVec.eq_of_getLsbD_eq
  intro i hi
  have hfree : v.getLsbD (7 * k + i) = false :=
    Nat.testBit_lt_two_pow (hv.trans_le (Nat.pow_le_pow_right (by decide) (Nat.le_add_right _ _)))
  have hthrough : 7 * k + i < 32 ∨ x.getLsbD i = false := by
    refine Nat.lt_or_ge (7 * k + i) 32 |>.imp_right fun hlost => ?_
    have hbit := congrArg (·.getLsbD (i - 4)) (hfits (by omega))
    have hthree : i - 4 < 3 := by omega
    simpa [BitVec.getLsbD_extractLsb', hthree, show 4 + (i - 4) = i by omega] using hbit
  rcases hthrough with hroom | hclear
  · rw [BitVec.getLsbD_eq_getElem hroom] at hfree
    simp [withGroup, hi, hfree, hroom]
  · simp [withGroup, hi, hfree, hclear]

theorem varintScan_nil (left k : Nat) (v : Word) : varintScan left k v [] = none := by
  cases left <;> rfl

theorem varintScan_cons_of_ends {k : Nat} {x : Byte} (hlast : x.getLsbD 7 = false)
    (hfits : k = 4 → x.extractLsb' 4 3 = 0#3) (left : Nat) (v : Word) (rest : List Byte) :
    varintScan (left + 1) k v (x :: rest) = some (withGroup v k x, k + 1) := by
  rw [varintScan, if_neg fun h => h.2 (hfits h.1), if_neg (Bool.eq_false_iff.1 hlast), withGroup]

theorem varintScan_cons_of_continues {k : Nat} {x : Byte} (hmore : x.getLsbD 7 = true) (hk : k ≠ 4) (left : Nat)
    (v : Word) (rest : List Byte) :
    varintScan (left + 1) k v (x :: rest) = varintScan left (k + 1) (withGroup v k x) rest := by
  rw [varintScan, if_neg fun h => hk h.1, if_pos hmore, withGroup]

/-- A fifth byte with one of bits 6:4 or bit 7 ends the decoder without a value (R143 (b), (c)). -/
theorem varintScan_fifth_eq_none {x : Byte} (h : x.extractLsb' 4 3 ≠ 0#3 ∨ x.getLsbD 7 = true) (v : Word)
    (rest : List Byte) : varintScan 1 4 v (x :: rest) = none := by
  by_cases hexcess : x.extractLsb' 4 3 ≠ 0#3
  · exact if_pos ⟨rfl, hexcess⟩
  · rw [varintScan, if_neg fun hc => hexcess hc.2, if_pos (h.resolve_left hexcess)]
    rfl

/-- The decoder's value after `k` bytes: their low 7 bits are its groups, and there is nothing above them (R143). -/
structure HoldsGroups (v : Word) (bytes : List Byte) (k : Nat) : Prop where
  below : v.toNat < 2 ^ (7 * k)
  groups : ∀ j, j < k → v.extractLsb' (7 * j) 7 = (bytes.getD j 0).extractLsb' 0 7

/-- Bit `i` of a value is bit `i mod 7` of byte `i / 7`. -/
theorem HoldsGroups.getLsbD_eq {v : Word} {bytes : List Byte} {k : Nat} (h : HoldsGroups v bytes k) (i : Nat) :
    v.getLsbD i = (decide (i < 7 * k) && (bytes.getD (i / 7) 0).getLsbD (i % 7)) := by
  by_cases hi : i < 7 * k
  · have hbit := congrArg (·.getLsbD (i % 7)) (h.groups (i / 7) (by omega))
    have hmod : i % 7 < 7 := Nat.mod_lt _ (by decide)
    simpa [BitVec.getLsbD_extractLsb', hmod, Nat.div_add_mod, hi] using hbit
  · have hpow : v.toNat < 2 ^ i := h.below.trans_le (Nat.pow_le_pow_right (by decide) (Nat.le_of_not_lt hi))
    rw [decide_eq_false hi, Bool.false_and]
    exact Nat.testBit_lt_two_pow hpow

/-- The groups determine the value. -/
theorem HoldsGroups.unique {v w : Word} {bytes : List Byte} {k : Nat} (hv : HoldsGroups v bytes k)
    (hw : HoldsGroups w bytes k) : v = w :=
  BitVec.eq_of_getLsbD_eq fun i _ => (hv.getLsbD_eq i).trans (hw.getLsbD_eq i).symm

/-- No value has a bit above bit 31, so no fifth byte has one of bits 6:4 (R143 (c), R150 (c)). -/
theorem HoldsGroups.fifth_fits {v : Word} {bytes : List Byte} (h : HoldsGroups v bytes 5) :
    (bytes.getD 4 0).extractLsb' 4 3 = 0#3 := by
  apply BitVec.eq_of_getLsbD_eq
  intro i hi
  have hbit := h.getLsbD_eq (32 + i)
  rw [BitVec.getLsbD_of_ge v (32 + i) (by omega), show (32 + i) / 7 = 4 by omega,
    show (32 + i) % 7 = 4 + i by omega, decide_eq_true (by omega), Bool.true_and] at hbit
  rw [BitVec.getLsbD_extractLsb', ← hbit, Bool.and_false, BitVec.getLsbD_zero]

theorem holdsGroups_zero (bytes : List Byte) : HoldsGroups 0#32 bytes 0 :=
  ⟨by decide, fun _ hj => absurd hj (Nat.not_lt_zero _)⟩

/-- A further byte puts the next group above those already held, and no bit is lost (R154). -/
theorem HoldsGroups.succ {v : Word} {bytes : List Byte} {k : Nat} (h : HoldsGroups v bytes k) (hk : k < 5)
    (hfits : k = 4 → (bytes.getD k 0).extractLsb' 4 3 = 0#3) :
    HoldsGroups (withGroup v k (bytes.getD k 0)) bytes (k + 1) where
  below := toNat_withGroup_lt h.below _
  groups j hj := by
    rcases Nat.lt_succ_iff_lt_or_eq.1 hj with hold | rfl
    · rw [extractLsb'_withGroup_of_lt hold, h.groups j hold]
    · exact extractLsb'_withGroup_self hk h.below hfits

theorem drop_eq_getD_cons {bytes : List Byte} {k : Nat} (h : k < bytes.length) :
    bytes.drop k = bytes.getD k 0 :: bytes.drop (k + 1) := by
  rw [List.drop_eq_getElem_cons h, List.getD_eq_getElem _ _ h]

/-- Up to four continuation bytes leave the loop at the byte behind them, with their groups in the value. -/
theorem exists_varintScan_eq {bytes : List Byte} {k left : Nat} (hk : left + k = 4)
    (hmore : ∀ j, j < k → j < bytes.length ∧ (bytes.getD j 0).getLsbD 7 = true) :
    ∃ v, HoldsGroups v bytes k ∧ varintScan 5 0 0#32 bytes = varintScan (left + 1) k v (bytes.drop k) := by
  induction k generalizing left with
  | zero =>
    obtain rfl : left = 4 := hk
    exact ⟨0#32, holdsGroups_zero bytes, rfl⟩
  | succ k ih =>
    obtain ⟨v, hv, hscan⟩ := ih (left := left + 1) (by omega) fun j hj => hmore j (Nat.lt_succ_of_lt hj)
    obtain ⟨hlen, hbit⟩ := hmore k (Nat.lt_succ_self k)
    refine ⟨_, hv.succ (by omega) (by omega), ?_⟩
    rw [hscan, drop_eq_getD_cons hlen, varintScan_cons_of_continues hbit (by omega)]

/-! ### The decoder of one value -/

/-- Settles O47: the byte behind the continuation bytes decides. -/
theorem varintDecodeOfAByteSequence : Obligations.VarintDecodeOfAByteSequence := by
  intro bytes off k hk hmore
  have hgetD : ∀ j, (bytes.drop off).getD j 0 = bytes.getD (off + j) 0 := fun j => by
    simp [List.getD_eq_getElem?_getD]
  obtain ⟨left, hleft⟩ : ∃ left, left + k = 4 := ⟨4 - k, by omega⟩
  obtain ⟨v, hv, hscan⟩ := exists_varintScan_eq (bytes := bytes.drop off) hleft fun j hj => by
    obtain ⟨hlen, hbit⟩ := hmore j hj
    exact ⟨by rw [List.length_drop]; omega, by rwa [hgetD]⟩
  rw [List.drop_drop] at hscan
  have hfifth : off + k < bytes.length → k = 4 →
      (bytes.getD (off + k) 0).extractLsb' 4 3 ≠ 0#3 ∨ (bytes.getD (off + k) 0).getLsbD 7 = true →
      varintDecode bytes off = none := by
    rintro hlen rfl hbad
    obtain rfl : left = 0 := by omega
    rw [varintDecode, hscan, drop_eq_getD_cons hlen, varintScan_fifth_eq_none hbad, Option.map_none]
  refine ⟨fun hend => ?_, fun hlen hfour hexcess => hfifth hlen hfour (.inl hexcess),
    fun hlen hfour hmore => hfifth hlen hfour (.inr hmore), fun hlen hlast hfits => ?_⟩
  · rw [varintDecode, hscan, List.drop_eq_nil_of_le hend, varintScan_nil, Option.map_none]
  · rw [← hgetD] at hfits hlast
    obtain ⟨hbelow, hgroups⟩ := hv.succ hk hfits
    refine ⟨_, ?_, hbelow, fun j hj => hgetD j ▸ hgroups j (Nat.lt_succ_of_le hj)⟩
    rw [varintDecode, hscan, drop_eq_getD_cons hlen, ← hgetD, varintScan_cons_of_ends hlast hfits]
    rfl

/-- The bytes of a varint hold its value, whatever bytes follow. -/
theorem holdsGroups_varint_append (v : Word) (tail : List Byte) :
    HoldsGroups v (varint v ++ tail) (varint v).length where
  below := by
    obtain ⟨hpos, hfive⟩ := length_varint v
    have hlen := lt_length_varint_iff v (varint v).length
    rcases Nat.lt_or_eq_of_le hfive with hlt | heq
    · omega
    · rw [heq]
      exact v.isLt.trans (by decide)
  groups j hj := by
    rw [List.getD_append _ _ _ _ hj]
    exact ((varintBytesOfAValue v).2 j hj).1.symm

theorem getLsbD_varint_append (v : Word) (tail : List Byte) {j : Nat} (hj : j < (varint v).length) :
    ((varint v ++ tail).getD j 0).getLsbD 7 = decide (j + 1 < (varint v).length) := by
  rw [List.getD_append _ _ _ _ hj, Bool.eq_iff_iff, decide_eq_true_iff]
  exact ((varintBytesOfAValue v).2 j hj).2

/-- Settles O48: the varint is continuation bytes and a last byte, whose groups determine the value. -/
theorem varintDecodeInvertsVarint : Obligations.VarintDecodeInvertsVarint := by
  intro v tail
  obtain ⟨hpos, hfive⟩ := length_varint v
  obtain ⟨k, hlen⟩ : ∃ k, (varint v).length = k + 1 := ⟨(varint v).length - 1, by omega⟩
  have hbytes := holdsGroups_varint_append v tail
  have hflag := fun j => getLsbD_varint_append v tail (j := j)
  rw [hlen] at hbytes hflag
  have hlast : k < (varint v ++ tail).length := by rw [List.length_append]; omega
  obtain ⟨_, _, _, hends⟩ := varintDecodeOfAByteSequence (varint v ++ tail) 0 k (by omega) fun j hj => by
    rw [Nat.zero_add, hflag j (by omega)]
    exact ⟨hj.trans hlast, decide_eq_true (Nat.succ_lt_succ hj)⟩
  simp only [Nat.zero_add] at hends
  have hclear := (hflag k (Nat.lt_succ_self k)).trans (decide_eq_false (Nat.lt_irrefl _))
  obtain ⟨w, hw, hbelow, hgroups⟩ := hends hlast hclear (by rintro rfl; exact hbytes.fifth_fits)
  have hsame : HoldsGroups w (varint v ++ tail) (k + 1) := ⟨hbelow, fun j hj => hgroups j (Nat.le_of_lt_succ hj)⟩
  rw [hw, hlen, hsame.unique hbytes]

/-! ### Streams -/

theorem encodeStream_nil : encodeStream [] = [] := rfl

theorem encodeStream_cons (d : Word) (ds : List Word) : encodeStream (d :: ds) = varint (zigzag d) ++ encodeStream ds :=
  List.flatMap_cons

/-- Settles O49: each value adds 1 to 5 bytes. -/
theorem encodeStreamConcatenates : Obligations.EncodeStreamConcatenates := by
  refine ⟨encodeStream_nil, encodeStream_cons, fun ds => ?_⟩
  induction ds with
  | nil => exact ⟨le_rfl, le_rfl⟩
  | cons d ds ih =>
    have := length_varint (zigzag d)
    rw [encodeStream_cons, List.length_append, List.length_cons]
    omega

theorem decodeStreamLoop_nil (fuel : Nat) : decodeStreamLoop fuel [] = some [] := by
  cases fuel <;> rfl

theorem decodeStreamLoop_of_none {bytes : List Byte} (hne : bytes ≠ []) (h : varintDecode bytes 0 = none)
    (fuel : Nat) : decodeStreamLoop fuel bytes = none := by
  obtain ⟨x, rest, rfl⟩ := List.exists_cons_of_ne_nil hne
  cases fuel with
  | zero => rfl
  | succ fuel => simp [decodeStreamLoop, h]

theorem decodeStreamLoop_of_some {bytes : List Byte} {v : Word} {taken : Nat}
    (h : varintDecode bytes 0 = some (v, taken)) (fuel : Nat) :
    decodeStreamLoop (fuel + 1) bytes = (decodeStreamLoop fuel (bytes.drop taken)).map (unzigzag v :: ·) := by
  obtain ⟨hpos, _, hin⟩ := varintDecode_end h
  obtain ⟨x, rest, rfl⟩ := List.exists_cons_of_length_pos (hpos.trans_le hin)
  simp [decodeStreamLoop, h]

/-- Every value takes a byte, so more fuel than there are bytes changes nothing (R153). -/
theorem decodeStreamLoop_eq_of_length_le {fuel fuel' : Nat} {bytes : List Byte} (h : bytes.length ≤ fuel)
    (h' : bytes.length ≤ fuel') : decodeStreamLoop fuel bytes = decodeStreamLoop fuel' bytes := by
  induction fuel generalizing fuel' bytes with
  | zero =>
    obtain rfl : bytes = [] := List.length_eq_zero_iff.1 (Nat.le_zero.1 h)
    exact (decodeStreamLoop_nil fuel').symm
  | succ fuel ih =>
    cases hv : varintDecode bytes 0 with
    | none =>
      by_cases hne : bytes = []
      · rw [hne, decodeStreamLoop_nil, decodeStreamLoop_nil]
      · rw [decodeStreamLoop_of_none hne hv, decodeStreamLoop_of_none hne hv]
    | some r =>
      obtain ⟨v, taken⟩ := r
      obtain ⟨hpos, _, hin⟩ := varintDecode_end hv
      have hshort := bytes.length_drop (i := taken)
      obtain ⟨more, rfl⟩ : ∃ more, fuel' = more + 1 := ⟨fuel' - 1, by omega⟩
      rw [decodeStreamLoop_of_some hv, decodeStreamLoop_of_some hv, ih (fuel' := more) (by omega) (by omega)]

/-- Settles O50: the loop's first turn, and the loop on the bytes behind the first value. -/
theorem decodeStreamTakesValueAfterValue : Obligations.DecodeStreamTakesValueAfterValue := by
  refine ⟨decodeStreamLoop_nil 0, fun _ hne hbad => decodeStreamLoop_of_none hne hbad _, fun bytes v newOff hv => ?_⟩
  obtain ⟨hpos, _, hin⟩ := varintDecode_end hv
  calc decodeStream bytes
      = decodeStreamLoop (bytes.length + 1) bytes := decodeStreamLoop_eq_of_length_le le_rfl (Nat.le_succ _)
    _ = (decodeStreamLoop bytes.length (bytes.drop newOff)).map (unzigzag v :: ·) := decodeStreamLoop_of_some hv _
    _ = (decodeStream (bytes.drop newOff)).map (unzigzag v :: ·) :=
      congrArg _ (decodeStreamLoop_eq_of_length_le (by rw [List.length_drop]; omega) le_rfl)

/-- Settles O51: the decoder takes the encoder's varints one by one, and unzigzag undoes zigzag. -/
theorem decodeStreamInvertsEncodeStream : Obligations.DecodeStreamInvertsEncodeStream := by
  obtain ⟨hnil, _, hcons⟩ := decodeStreamTakesValueAfterValue
  intro ds
  induction ds with
  | nil => exact hnil
  | cons d ds ih =>
    rw [encodeStream_cons, hcons _ _ _ (varintDecodeInvertsVarint (zigzag d) (encodeStream ds)), List.drop_left, ih,
      Option.map_some, unzigzag_zigzag]

end Sys2Proof.Machine
end

section
/-! The VARINT unit's commands (44_varint.md R144 to R149): the end of each under each outcome of its tests, in the
order of R168, and the two round trips on the machine (R150). -/

namespace Sys2Proof.Machine

/-! ### Operands and reported lengths -/

/-- A length that fits a 16-bit register is reported in full. -/
theorem toNat_ofNat_sixteen {n : Nat} (h : n ≤ 65535) : (BitVec.ofNat 16 n).toNat = n :=
  (BitVec.toNat_ofNat n 16).trans (Nat.mod_eq_of_lt (Nat.lt_succ_of_le h))

theorem State.lenOperand_le (s : State) : s.lenOperand ≤ 65535 := Nat.le_of_lt_succ s.csr.len.isLt

/-- A length reported in `RLEN` is `LEN` itself. -/
theorem State.ofNat_lenOperand (s : State) : BitVec.ofNat 16 s.lenOperand = s.csr.len := by
  simp [State.lenOperand]

/-- `IB[0..n)` is a sequence of `n` bytes when it agrees with it byte by byte. -/
theorem State.ibBytes_eq {u : State} {bytes : List Byte} (h : ∀ k, k < bytes.length → u.readIb k = bytes.getD k 0) :
    u.ibBytes bytes.length = bytes :=
  List.ext_getElem (by simp) fun k _ hk => by
    rw [← List.getD_eq_getElem _ 0, ← List.getD_eq_getElem _ 0, State.getD_ibBytes u hk, h k hk]

/-! ### ZZENC and ZZDEC -/

/-- Settles O52: the model's zigzag is the formula of R140. -/
theorem zzencCommandResult : Obligations.ZzencCommandResult := fun s =>
  (execZzenc_cases s).trans (completeCommand_none .zzenc _)

/-- The model's unzigzag tests bit 0 for 1, the pseudocode of R141 for 0. -/
theorem unzigzag_eq_ite_even (u : Word) :
    unzigzag u = if u.getLsbD 0 = false then u >>> 1 else (u >>> 1) ^^^ 0xFFFFFFFF := by
  cases h : u.getLsbD 0 with
  | false => exact unzigzag_of_even h
  | true => exact if_pos h

/-- Settles O53: with bit 0 tested for 0, the model's unzigzag is the pseudocode of R141. -/
theorem zzdecCommandResult : Obligations.ZzdecCommandResult := by
  intro s
  rw [execZzdec_cases, completeCommand_none, unzigzag_eq_ite_even]
  rfl

/-- Settles O59: each command computes its function on VAL, and the two functions are inverse. -/
theorem zzencAndZzdecRestoreVal : Obligations.ZzencAndZzdecRestoreVal := by
  obtain ⟨hunzigzag, hzigzag⟩ := zigzagAndUnzigzagAreInverse
  exact fun s => ⟨⟨_, _, execZzenc_cases s, execZzdec_cases _, hunzigzag s.csr.val⟩,
    ⟨_, _, execZzdec_cases s, execZzenc_cases _, hzigzag s.csr.val⟩⟩

/-! ### VENC and VDEC -/

/-- Settles O54: VENC has no test, and writes the varint from index 0 on. -/
theorem vencCommandResult : Obligations.VencCommandResult := fun s =>
  ⟨_, (execVenc_cases s).trans (completeCommand_none .venc _), rfl, s.readOb_setOb_writeFrom (varint s.csr.val)⟩

/-- With the length in its bounds, the decoder alone decides. -/
theorem execVdec_of_none {s : State} (hfit : s.lenOperand ≤ s.params.nb)
    (hbad : varintDecode (s.ibBytes s.lenOperand) s.offOperand = none) :
    exec .vdec s = failCommand (encode .vdec) .malformed s := by
  simp [exec, execVdec, State.not_lenTooLarge_iff.2 hfit, hbad]

theorem execVdec_of_some {s : State} {v : Word} {newOff : Nat} (hfit : s.lenOperand ≤ s.params.nb)
    (hv : varintDecode (s.ibBytes s.lenOperand) s.offOperand = some (v, newOff)) :
    exec .vdec s = completeCommand .vdec .none (s.setCsr { s.csr with
      val := v, rlen := BitVec.ofNat 16 (newOff - s.offOperand), off := BitVec.ofNat 16 newOff }) := by
  simp [exec, execVdec, State.not_lenTooLarge_iff.2 hfit, hv]

/-- Settles O55: the offset behind the value is at most LEN, so the 16-bit registers report it in full. -/
theorem vdecCommandResult : Obligations.VdecCommandResult := by
  intro s
  refine ⟨fun hlarge => ?_, fun hfit hbad => ?_, fun v newOff hfit hv => ?_⟩
  · calc exec .vdec s
        = failCommand (encode .vdec) .badLength s := if_pos (State.lenTooLarge_iff.2 hlarge)
      _ = _ := failCommand_eq_afterError _ _ s
  · exact (execVdec_of_none hfit hbad).trans (failCommand_eq_afterError _ _ s)
  · obtain ⟨_, _, hend⟩ := varintDecode_end hv
    rw [State.length_ibBytes] at hend
    have hlen := s.lenOperand_le
    refine ⟨hend, _, (execVdec_of_some hfit hv).trans (completeCommand_none .vdec _), rfl, ?_, ?_⟩
    · exact toNat_ofNat_sixteen (by omega)
    · exact toNat_ofNat_sixteen (by omega)

/-! ### PACK -/

/-- With the count in its bounds, the stream's length alone decides. -/
theorem execPack_of_count_legal {s : State} (hfit : s.cntOperand ≤ s.params.nw) {stream : List Byte}
    (hstream : stream = encodeStream (s.dltElements s.cntOperand)) :
    exec .pack s =
      if s.params.nb < stream.length then failCommand (encode .pack) .badLength s
      else completeCommand .pack .none ((s.setOb (s.ob.writeFrom 0 stream)).setCsr
        { s.csr with rlen := BitVec.ofNat 16 stream.length, rcnt := s.csr.cnt }) := by
  rw [← State.ofNat_cntOperand, hstream]
  exact if_neg (State.not_cntTooLarge_iff.2 hfit)

/-- A successful PACK: its frame, and the stream in `OB` (R148). -/
theorem exists_packed_of_length_le {s : State} (hfit : s.cntOperand ≤ s.params.nw) {stream : List Byte}
    (hstream : stream = encodeStream (s.dltElements s.cntOperand)) (hroom : stream.length ≤ s.params.nb) :
    ∃ t, exec .pack s = .next t ∧
      t = { s with ob := t.ob, csr := { s.csr with
        cmd := 0x44, status := 0x00, rlen := BitVec.ofNat 16 stream.length, rcnt := s.csr.cnt } } ∧
      ∀ k, t.readOb k = if k < stream.length then stream.getD k 0 else s.readOb k := by
  rw [execPack_of_count_legal hfit hstream, if_neg (Nat.not_lt.2 hroom)]
  exact ⟨_, completeCommand_none .pack _, rfl, s.readOb_setOb_writeFrom stream⟩

/-- Settles O56, test by test. -/
theorem packCommandResult : Obligations.PackCommandResult := by
  intro s stream hstream
  refine ⟨fun hlarge => ?_, fun hfit hlarge => ?_, fun hfit hroom => exists_packed_of_length_le hfit hstream hroom⟩
  · calc exec .pack s
        = failCommand (encode .pack) .badLength s := if_pos (State.cntTooLarge_iff.2 hlarge)
      _ = _ := failCommand_eq_afterError _ _ s
  · rw [execPack_of_count_legal hfit hstream, if_pos hlarge]
    exact failCommand_eq_afterError _ _ s

/-! ### UNPACK -/

theorem execUnpack_of_none {s : State} (hfit : s.lenOperand ≤ s.params.nb)
    (hbad : decodeStream (s.ibBytes s.lenOperand) = none) :
    exec .unpack s = failCommand (encode .unpack) .malformed s := by
  simp [exec, execUnpack, State.not_lenTooLarge_iff.2 hfit, hbad]

/-- With the length in its bounds and a well-formed stream, the number of values alone decides. -/
theorem execUnpack_of_some {s : State} {ds : List Word} (hfit : s.lenOperand ≤ s.params.nb)
    (hds : decodeStream (s.ibBytes s.lenOperand) = some ds) :
    exec .unpack s =
      if s.params.nw < ds.length then failCommand (encode .unpack) .badLength s
      else completeCommand .unpack .none ((s.setDlt (s.dlt.writeFrom 0 ds)).setCsr
        { s.csr with rcnt := BitVec.ofNat 16 ds.length, rlen := BitVec.ofNat 16 s.lenOperand }) := by
  simp [exec, execUnpack, State.not_lenTooLarge_iff.2 hfit, hds]

/-- Settles O57, test by test. -/
theorem unpackCommandResult : Obligations.UnpackCommandResult := by
  intro s
  refine ⟨fun hlarge => ?_, fun hfit hbad => ?_, fun ds hfit hds => ⟨fun hlarge => ?_, fun hroom => ?_⟩⟩
  · calc exec .unpack s
        = failCommand (encode .unpack) .badLength s := if_pos (State.lenTooLarge_iff.2 hlarge)
      _ = _ := failCommand_eq_afterError _ _ s
  · exact (execUnpack_of_none hfit hbad).trans (failCommand_eq_afterError _ _ s)
  · rw [execUnpack_of_some hfit hds, if_pos hlarge]
    exact failCommand_eq_afterError _ _ s
  · rw [execUnpack_of_some hfit hds, if_neg (Nat.not_lt.2 hroom), State.ofNat_lenOperand]
    exact ⟨_, completeCommand_none .unpack _, rfl, s.readDlt_setDlt_writeFrom ds⟩

/-! ### PACK, then UNPACK -/

/-- An error-free PACK in a legal engine: the stream is in `OB`, and `RLEN` is its exact length (R1, R148). -/
theorem packed_of_exec_pack {s t : State} (hparams : s.params.wf = true) (h : exec .pack s = .next t)
    (hok : statusErr t.csr.status = 0) {stream : List Byte}
    (hstream : stream = encodeStream (s.dltElements s.cntOperand)) :
    s.cntOperand ≤ s.params.nw ∧ stream.length ≤ s.params.nb ∧ t.csr.rlen.toNat = stream.length ∧
      ∀ k, k < stream.length → t.readOb k = stream.getD k 0 := by
  rcases execPack_cases s with ⟨e, _, hfail⟩ | ⟨hfit, hroom, _⟩
  · obtain rfl := failCommand_next (hfail.symm.trans h)
    exact absurd hok (statusErr_statusOfError_ne_zero e)
  · rw [← hstream] at hroom
    obtain ⟨t', hexec, hframe, hob⟩ := exists_packed_of_length_le hfit hstream hroom
    obtain rfl : t' = t := Host.Outcome.next.inj (hexec.symm.trans h)
    have hrlen : t'.csr.rlen = BitVec.ofNat 16 stream.length := congrArg (·.csr.rlen) hframe
    refine ⟨hfit, hroom, ?_, fun k hk => (hob k).trans (if_pos hk)⟩
    rw [hrlen, toNat_ofNat_sixteen (hroom.trans (Params.capacities_le hparams).1)]

/-- Settles O58: UNPACK reads PACK's whole stream, which decodes to the deltas, and these fit as they did before. -/
theorem packThenUnpackRestoresTheDeltas : Obligations.PackThenUnpackRestoresTheDeltas := by
  intro s t u v hparams hpack hok hsame hlen hib hunpack
  obtain ⟨stream, hstream⟩ : ∃ stream, stream = encodeStream (s.dltElements s.cntOperand) := ⟨_, rfl⟩
  obtain ⟨hfit, hroom, hrlen, hob⟩ := packed_of_exec_pack hparams hpack hok hstream
  have hkept : u.params = s.params := hsame.trans (keepsHost_exec hpack).params
  have hlenU : u.lenOperand = stream.length := (congrArg BitVec.toNat hlen).trans hrlen
  have hdecode : decodeStream (u.ibBytes u.lenOperand) = some (s.dltElements s.cntOperand) := by
    rw [hlenU, State.ibBytes_eq fun k hk => (hib k (hrlen ▸ hk)).trans (hob k hk), hstream]
    exact decodeStreamInvertsEncodeStream _
  obtain ⟨_, _, hunpacked⟩ := unpackCommandResult u
  obtain ⟨_, hwrites⟩ := hunpacked _ (by rwa [hlenU, hkept]) hdecode
  rw [State.length_dltElements] at hwrites
  obtain ⟨v', hexec, hframe, hdlt⟩ := hwrites (by rwa [hkept])
  obtain rfl : v' = v := Host.Outcome.next.inj (hexec.symm.trans hunpack)
  have hstatus : v'.csr.status = 0x00 := congrArg (·.csr.status) hframe
  have hrcnt : v'.csr.rcnt = BitVec.ofNat 16 s.cntOperand := congrArg (·.csr.rcnt) hframe
  refine ⟨by rw [hstatus]; decide, hrcnt.trans s.ofNat_cntOperand, fun k hk => ?_⟩
  rw [hdlt, if_pos hk, State.getD_dltElements s hk]

end Sys2Proof.Machine
end

section
/-! The two ends of a command (60_exceptions.md R162, R163): what a command that ended with `ERR` not 0, or with `ERR` 0,
has left in `CMD`, `STATUS` and `STICKY`; and the end of a reserved opcode (R167). -/

namespace Sys2Proof.Machine

/-! ### The error end -/

theorem errorNumber_bounds (e : ErrorCode) : 1 ≤ errorNumber e ∧ errorNumber e ≤ 7 := by
  cases e <;> decide

theorem exists_afterError_of_failCommand {op : Byte} {e : ErrorCode} {s t : State}
    (h : failCommand op e s = .next t) : ∃ n, 1 ≤ n ∧ n ≤ 7 ∧ t = s.afterError op n := by
  obtain ⟨hlow, hhigh⟩ := errorNumber_bounds e
  obtain rfl := Host.Outcome.next.inj ((failCommand_eq_afterError op e s).symm.trans h)
  exact ⟨errorNumber e, hlow, hhigh, rfl⟩

/-- The only end of a command with `ERR` not 0 is the error end: SRESET and every successful end leave `ERR` 0. -/
theorem exists_afterError_of_exec {i : Instr} {s t : State} (h : exec i s = .next t)
    (herr : statusErr t.csr.status ≠ 0) : ∃ n, 1 ≤ n ∧ n ≤ 7 ∧ t = s.afterError (encode i) n := by
  by_cases hi : i = .sreset
  · subst hi
    cases execSreset_cases s ▸ h
    exact absurd rfl herr
  · rcases exec_ends i s hi with ⟨_, _, hfail⟩ | ⟨k, _, hdone, _⟩
    · exact exists_afterError_of_failCommand (hfail ▸ h)
    · obtain rfl := completeCommand_next (hdone ▸ h)
      exact absurd (statusErr_statusOfKind k) herr

/-- Settles O12: a command word is a command's opcode, or reserved and so ends with ILLEGAL_CMD. -/
theorem errorEndChangesThreeRegistersOnly : Obligations.ErrorEndChangesThreeRegistersOnly := by
  intro op s t h herr
  cases hdec : decode op with
  | ok i =>
    rw [runCommand_of_decode_ok s hdec] at h
    obtain rfl := encode_of_decode_ok hdec
    exact exists_afterError_of_exec h herr
  | error e => exact exists_afterError_of_failCommand (runCommand_of_decode_error s hdec ▸ h)

/-! ### The successful end -/

theorem kindNumber_le_three (k : Kind) : kindNumber k ≤ 3 := by
  cases k <;> decide

theorem kindNumber_ne_zero_iff (k : Kind) : kindNumber k ≠ 0 ↔ k ≠ .none := by
  cases k <;> decide

theorem stickyAfterKind_eq_ite (k : Kind) (old : BitVec 9) :
    stickyAfterKind k old = if kindNumber k = 2 then old ||| 0x001 else old := by
  cases k <;> rfl

/-- Settles O13: with `ERR` 0 the end is not the error end, and only CLRS has touched `STICKY` before it. -/
theorem successfulEndWritesCommandAndStatus : Obligations.SuccessfulEndWritesCommandAndStatus := by
  intro i s t hi h hok
  rcases exec_ends i s hi with ⟨e, _, hfail⟩ | ⟨k, s', hdone, hkind, hsticky, _⟩
  · obtain rfl := failCommand_next (hfail ▸ h)
    exact absurd hok (statusErr_statusOfError_ne_zero e)
  · obtain rfl := completeCommand_next (hdone ▸ h)
    refine ⟨kindNumber k, kindNumber_le_three k, (kindNumber_ne_zero_iff k).trans hkind, rfl, rfl, fun hclrs => ?_⟩
    rw [if_neg hclrs] at hsticky
    rw [State.setCsr_csr, hsticky]
    exact stickyAfterKind_eq_ite k s.csr.sticky

/-! ### Reserved opcodes -/

/-- Settles O6: the decoder refuses the word, and ILLEGAL_CMD has number 7. -/
theorem reservedOpcodeEndsWithIllegalCmd : Obligations.ReservedOpcodeEndsWithIllegalCmd := by
  intro s v rest hscript hreserved
  calc step s
      = runCommand (v.setWidth 8) (s.setScript rest) := step_write_cmd hscript
    _ = failCommand (v.setWidth 8) .illegalCmd (s.setScript rest) :=
      runCommand_of_decode_error _ (decode_eq_error_iff.2 hreserved)
    _ = _ := failCommand_eq_afterError _ _ _

end Sys2Proof.Machine
end
